-- ==== Sys2Proof/Word.lean ====
section
/-! DEFINITION. The word types of the part, its index types, and the two operations on fixed tables. -/

namespace Sys2Proof

/-- One byte of the image, of a frame or of the host port. -/
abbrev Byte := BitVec 8

/-- A 16-bit quantity: a sequence (spec/00 section 5.4), a tick count, a notice number. -/
abbrev Half := BitVec 16

/-- The 32-bit host data bus; lane k is bits 8k+7 to 8k (spec/10 section 10.4). -/
abbrev HostWord := BitVec 32

/-- A region number, 0 to 127 (spec/00 section 5.3). -/
abbrev Region := Fin 128

/-- A byte position within a region, 0 to 127. -/
abbrev Offset := Fin 128

/-- A station ID, 0 to 31; 0 is no station that may appear on the line (spec/00 section 4). -/
abbrev Station := Fin 32

/-- The item of a fixed table at an index. -/
def pick {α : Type} {n : Nat} (v : Vector α n) (i : Fin n) : α := v[i.val]'i.isLt

/-- A fixed table with the item at one index replaced. -/
def put {α : Type} {n : Nat} (v : Vector α n) (i : Fin n) (a : α) : Vector α n := v.set i.val a i.isLt

/-- Every region, in ascending order. -/
def allRegions : List Region := List.finRange 128

/-- The successor of a count that stops at 65 535 (spec/00 section 5.3, "saturating"). -/
def satSucc (n : Nat) : Nat := if n < 65535 then n + 1 else 65535

end Sys2Proof
end

