-- ==== Sys2Proof/Config.lean ====
section
/-! DEFINITION. The constants that the data sheet fixes for this part. The spec calls no value undefined, so there is no free
value here (INVENTORY.md, "What the manual leaves open"). -/

namespace Sys2Proof.Config

/-- The protocol major revision of this part (spec/00 section 1.1). -/
def majorRevision : BitVec 4 := 2

/-- The protocol minor revision of this part (R114). -/
def minorRevision : Byte := 1

/-- Claim records a station holds (R41). -/
def maxRecords : Nat := 8

/-- Entries of the owner claim table (R55). -/
def maxTable : Nat := 16

/-- Entries of the owner claim table for one region (R55). -/
def maxPerRegion : Nat := 4

/-- Entries of the control queue (R166). -/
def maxQueue : Nat := 16

/-- Records of the notice queue (R151). -/
def maxNotices : Nat := 32

/-- Entries of the parked write buffer (R131). -/
def maxParked : Nat := 16

/-- Attempts a frame in flight may make (R162). -/
def maxAttempts : Nat := 16

/-- Consecutive drops that isolate a station (R122). -/
def dropLimit : Nat := 4

/-- CLAIM frames of a record before its CLAIMs are exhausted (R44). -/
def claimLimit : Nat := 3

/-- The control run at which the publish offer goes first (R169). -/
def runLimit : Nat := 4

/-- The leave limit in ms (R117). -/
def leaveLimit : Nat := 500

/-- The period of the scan timer in ms (R34). -/
def scanPeriod : Nat := 50

end Sys2Proof.Config
end

