-- ==== Sys2Proof/Syntax.lean ====
section
/-! DEFINITION. The commands of the block: one constructor for each row of spec/opcode_table.json, in the table's order, and the
fields of the frames that the received-frame rows carry. -/

namespace Sys2Proof

/-- The header fields of a frame (spec/10 section 10.1.1), less the kind, which the command itself names. -/
structure Header where
  /-- The protocol major revision. -/
  major : BitVec 4
  /-- The source byte. -/
  source : Byte
  /-- The region byte; 0xFF where the kind carries none. -/
  region : Byte
  /-- The sequence. -/
  seq : Half
  deriving DecidableEq, Repr

/-- The four profile bytes of a PRESENCE or JOIN payload (spec/10 section 10.1.2). -/
structure Profile where
  /-- Minor revision in bits 3 to 0. -/
  minor : Byte
  /-- Presence period in 10 ms units. -/
  presence : Byte
  /-- Refresh period in 100 ms units. -/
  refresh : Byte
  /-- Home count. -/
  homeCount : Byte
  deriving DecidableEq, Repr

/-- One command of the block: one row of spec/opcode_table.json. The operands of a received frame are its fields as bytes;
the payload operands of a frame of another major revision are not read (R92, R176). -/
inductive Instr where
  /-- nRST goes low (R108). -/
  | nrstAsserted
  /-- nRST goes high; `straps` is what ID4 to ID0 show at that moment (R108). -/
  | nrstReleased (straps : Station)
  /-- The Image Store clearing ends (R110). -/
  | imageClearComplete
  /-- The millisecond tick (R107). -/
  | msTick
  /-- A host read of the window area at word `word`, host address 4 x `word` (R126, R128). -/
  | windowRead (word : BitVec 13) (lanes : BitVec 4)
  /-- A host write of the window area (R126, R129). -/
  | windowWrite (word : BitVec 13) (lanes : BitVec 4) (data : HostWord)
  /-- A host write of the configuration area; host address 0x8000 + 4 x `word` (R111). -/
  | configurationWrite (word : BitVec 13) (lanes : BitVec 4) (data : HostWord)
  /-- A host write of the pop location, 0x802C (R152). -/
  | noticePop (lanes : BitVec 4) (data : HostWord)
  /-- A host write of the flags, 0x8030 (R155). -/
  | flagsWrite (lanes : BitVec 4) (data : HostWord)
  /-- A host write of the mask, 0x8034 (R156). -/
  | maskWrite (lanes : BitVec 4) (data : HostWord)
  /-- A host write of any other control-area location (R140, R179). -/
  | registerWrite (word : BitVec 13) (lanes : BitVec 4) (data : HostWord)
  /-- Code 0x01 written to the command location; `arg` is the argument byte where the one access covers it too (R144, R179). -/
  | joinCommand (arg : Option Byte)
  /-- Code 0x02 (R117, R144). -/
  | leaveCommand (arg : Option Byte)
  /-- Code 0x03; `straps` is what ID4 to ID0 show at the entry to RESET (R109). -/
  | restartCommand (arg : Option Byte) (straps : Station)
  /-- Code 0x10 (R145). -/
  | claimCommand (arg : Option Byte)
  /-- Code 0x11 (R146). -/
  | withdrawCommand (arg : Option Byte)
  /-- Code 0x12 (R147). -/
  | releaseCommand (arg : Option Byte)
  /-- Code 0x13 (R148). -/
  | holdCommand (arg : Option Byte)
  /-- Code 0x14 (R148). -/
  | unholdCommand (arg : Option Byte)
  /-- Code 0x15 (R149). -/
  | refreshCommand (arg : Option Byte)
  /-- Any other code written to the command location (R142). -/
  | unknownCommand (arg : Option Byte) (code : Byte)
  /-- Carrier appears on the line (R159, R160). -/
  | carrierStart
  /-- 12 us without carrier: the burst ends and the line is idle (R159). -/
  | lineIdle
  /-- The transmit scheduler takes a frame into flight (R169). -/
  | schedulerTake
  /-- The deferral wait ends with the line still idle (R160). -/
  | deferralWaitExpiry
  /-- The attempt's echo ends matching (R161). -/
  | attemptCarried
  /-- A bit heard differs from the bit sent (R161). -/
  | attemptCollision
  /-- A burst that fails the tests of R171. -/
  | badBurst
  /-- A good frame bearing own ID (R103). -/
  | idClashFrame
  /-- A good frame with source 0 or 32 to 255 (R173, R177). -/
  | noSourceFrame (source : Byte)
  /-- A good frame whose kind code names no kind (R176). -/
  | unknownKindFrame (code : BitVec 4) (h : Header)
  /-- PRESENCE: profile, station state byte, owned list with bit r for region r (R92, R85). -/
  | presenceReceived (h : Header) (profile : Profile) (state : Byte) (owned : BitVec 128)
  /-- JOIN (R92, R32). -/
  | joinReceived (h : Header) (profile : Profile)
  /-- LEAVE (R100). -/
  | leaveReceived (h : Header)
  /-- CLAIM (R56). -/
  | claimReceived (h : Header)
  /-- WAIT (R46). -/
  | waitReceived (h : Header) (claimant position : Byte)
  /-- REFUSE (R47). -/
  | refuseReceived (h : Header) (claimant reason believed : Byte)
  /-- WITHDRAW (R59). -/
  | withdrawReceived (h : Header)
  /-- HANDOVER: new owner, remaining count, three remaining IDs, content (R17). -/
  | handoverReceived (h : Header) (newOwner count : Byte) (ids : Vector Byte 3) (content : Vector Byte 128)
  /-- TAKE (R20). -/
  | takeReceived (h : Header) (content : Vector Byte 128)
  /-- RELEASE (R21). -/
  | releaseReceived (h : Header)
  /-- UPDATE: offset, length byte, data (R16). -/
  | updateReceived (h : Header) (offset length : Byte) (data : List Byte)
  /-- REPAIR (R33). -/
  | repairReceived (h : Header)
  /-- The listen timer expires (R113). -/
  | listenTimerExpiry
  /-- The leave timer expires (R119). -/
  | leaveTimerExpiry
  /-- The presence timer expires (R115). -/
  | presenceTimerExpiry
  /-- The refresh timer expires (R31). -/
  | refreshTimerExpiry
  /-- The scan timer expires (R34). -/
  | scanTimerExpiry
  /-- The tenure timer of a region expires (R9). -/
  | tenureTimerExpiry (r : Region)
  /-- The answer timer of the record of a region expires (R45). -/
  | answerTimerExpiry (r : Region)
  /-- The patience timer of the record of a region expires (R49). -/
  | patienceTimerExpiry (r : Region)
  /-- The orphan-wait timer of the record of a region expires (R79, R80). -/
  | orphanWaitTimerExpiry (r : Region)
  /-- The redirect timer of a region expires (R58). -/
  | redirectTimerExpiry (r : Region)
  /-- The silence timer of a roster entry expires (R99). -/
  | silenceTimerExpiry (p : Station)
  /-- The lowest region of the home backlog is taken (R116). -/
  | homeClaim
  deriving DecidableEq, Repr

end Sys2Proof
end

