-- ==== Sys2Proof/WellFormed.lean ====
section
/-! DEFINITION. Which terms of `Instr` spell a command of their row. A term that fails is refused by name (illFormed): what it
would say belongs to another row, or is no frame of the line. -/

namespace Sys2Proof

/-- The words of the configuration area: parameters 0x8100, home set 0x8110, window table 0x8140 (spec/10 section 10.2.1). -/
def configWord (word : BitVec 13) : Bool :=
  let w := word.toNat
  (64 ≤ w && w < 66) || (68 ≤ w && w < 72) || (80 ≤ w && w < 88)

/-- A write at the mailbox word that issues a command: the enabled lanes are lane 1, or lanes 0 and 1 (R142, R179). -/
def issuesCommand (word : BitVec 13) (lanes : BitVec 4) : Bool :=
  word.toNat == 4 && (lanes == 0b0010 || lanes == 0b0011)

/-- The control-area words with a row of their own: pop 0x802C, flags 0x8030, mask 0x8034 and the configuration area. -/
def ownRowWord (word : BitVec 13) : Bool :=
  word.toNat == 11 || word.toNat == 12 || word.toNat == 13 || configWord word

/-- The nine command codes (spec/10 section 10.2.2). -/
def commandCodes : List Byte := [0x01, 0x02, 0x03, 0x10, 0x11, 0x12, 0x13, 0x14, 0x15]

/-- The kind codes that name no kind (spec/10 section 10.1.2). -/
def noKindCode (code : BitVec 4) : Bool := code == 0 || code == 13 || code == 14 || code == 15

/-- The command is one that its row can stand for. -/
def Instr.wellFormed : Instr → Bool
  | .configurationWrite word _ _ => configWord word
  | .registerWrite word lanes _ => !ownRowWord word && !issuesCommand word lanes
  | .unknownCommand _ code => !commandCodes.contains code
  | .noSourceFrame source => source == 0 || 32 ≤ source.toNat
  | .unknownKindFrame code _ => noKindCode code
  | .updateReceived h _ length data => h.major != Config.majorRevision || (data.length == length.toNat && data.length ≤ 143)
  | .nrstAsserted | .nrstReleased _ | .imageClearComplete | .msTick | .windowRead _ _ | .windowWrite _ _ _
  | .noticePop _ _ | .flagsWrite _ _ | .maskWrite _ _ | .joinCommand _ | .leaveCommand _ | .restartCommand _ _
  | .claimCommand _ | .withdrawCommand _ | .releaseCommand _ | .holdCommand _ | .unholdCommand _ | .refreshCommand _
  | .carrierStart | .lineIdle | .schedulerTake | .deferralWaitExpiry | .attemptCarried | .attemptCollision | .badBurst
  | .idClashFrame | .presenceReceived _ _ _ _ | .joinReceived _ _ | .leaveReceived _ | .claimReceived _
  | .waitReceived _ _ _ | .refuseReceived _ _ _ _ | .withdrawReceived _ | .handoverReceived _ _ _ _ _ | .takeReceived _ _
  | .releaseReceived _ | .repairReceived _ | .listenTimerExpiry | .leaveTimerExpiry | .presenceTimerExpiry
  | .refreshTimerExpiry | .scanTimerExpiry | .tenureTimerExpiry _ | .answerTimerExpiry _ | .patienceTimerExpiry _
  | .orphanWaitTimerExpiry _ | .redirectTimerExpiry _ | .silenceTimerExpiry _ | .homeClaim => true

end Sys2Proof
end

