-- ==== Sys2Proof/Machine/State.lean ====
section
/-! DEFINITION. The state of the station, block by block as spec/00 section 2 cuts it, the ways a step can stop, and the state
after pin reset. -/

namespace Sys2Proof.Machine

/-! ### Time -/

/-- A timer (R107). `running n` has n ticks to go; at `running 0` its duration has run out and its expiry is to be taken. -/
inductive Timer where
  | stopped
  | running (left : Nat)
  deriving DecidableEq, Repr

/-! ### Region Directory (spec/01, spec/04 section 4.1.1) -/

/-- The station's relation to a region (R3). -/
inductive Role where
  | owner
  | handing
  | peer
  | orphan
  deriving DecidableEq, Repr

/-- Whether the replica is believed equal to the owner's content (R4). -/
inductive Replica where
  | valid
  | stale
  deriving DecidableEq, Repr

/-- Where this station's RELEASE for a region stands (R70). -/
inductive ReleaseState where
  | idle
  | queued
  | captured
  deriving DecidableEq, Repr

/-- A directory entry (spec/01 section 1.2), with the release state kept alongside it (R70). -/
structure DirEntry where
  /-- The station believed to own the region, or none. -/
  owner : Option Station
  /-- This station's relation to the region (R3). -/
  role : Role
  /-- The replica field (R4). -/
  replica : Replica
  /-- The last sequence (R10). -/
  lastSeq : Half
  /-- The held mark (R8). -/
  held : Bool
  /-- The tenure timer; stopped reads expired (R9). -/
  tenure : Timer
  /-- The stale age in ms, saturating at 65 535 (R6). -/
  staleAge : Nat
  /-- The repair outstanding mark (R7). -/
  repair : Bool
  /-- The release state (R70). -/
  release : ReleaseState
  deriving DecidableEq, Repr

/-! ### Publication Unit (spec/02) -/

/-- An entry of the publish set; its region is the key it stands under (R22, R23). -/
structure PubEntry where
  /-- Lowest changed offset. -/
  low : Offset
  /-- Highest changed offset. -/
  high : Offset
  /-- The whole region is to be published. -/
  full : Bool
  deriving DecidableEq, Repr

/-- The Publication Unit. -/
structure Publication where
  /-- The publish set, by region (R22). -/
  set : Vector (Option PubEntry) 128
  /-- The region whose UPDATE was last captured (spec/02 section 2.1). -/
  pointer : Region
  /-- The refresh timer (R31). -/
  refresh : Timer
  /-- The scan timer (R34). -/
  scan : Timer
  /-- A LEAVE frame has been queued and the station has not been ACTIVE since: no addition is made (R37). -/
  barred : Bool
  deriving DecidableEq, Repr

/-! ### Claim Engine (spec/03, spec/04) -/

/-- The request that made a claim record (R42). -/
inductive Origin where
  | home
  | command
  | write
  deriving DecidableEq, Repr

/-- Toward an owner, or toward an orphan region (spec/03 section 3.2). -/
inductive ClaimKind where
  | normal
  | orphan
  deriving DecidableEq, Repr

/-- Progress of a claim (spec/03 section 3.2, spec/04 section 4.2). -/
inductive ClaimState where
  | asking
  | asked
  | queued
  | orphanWait
  | deferred
  | taking
  deriving DecidableEq, Repr

/-- A claim record; its region is the key it stands under (R41). Its to-send mark stands in the Line Unit's order (R167). -/
structure ClaimRecord where
  /-- The request that created it. -/
  origin : Origin
  /-- NORMAL or ORPHAN. -/
  kind : ClaimKind
  /-- Its state. -/
  state : ClaimState
  /-- CLAIM frames completed since the last answer, 0 to 3. -/
  attempts : Nat
  /-- Runs in ASKED (R45). -/
  answer : Timer
  /-- Bounds the wait after the first WAIT (R49). -/
  patience : Timer
  /-- Runs in ORPHAN_WAIT and DEFERRED (spec/04 section 4.2). -/
  orphanWait : Timer
  /-- The station deferred to (R77). -/
  deferredTo : Option Station
  /-- The source of the last WAIT taken (R46). -/
  queuedAt : Option Station
  deriving DecidableEq, Repr

/-- An entry of the owner claim table (R55). -/
structure TableEntry where
  /-- The region claimed. -/
  region : Region
  /-- The station that waits for it. -/
  claimant : Station
  deriving DecidableEq, Repr

/-- The handover state, with the target and the captured list while CAPTURED (R61). -/
inductive Handover where
  | idle
  | queued
  | captured (target : Station) (list : List Station)
  deriving DecidableEq, Repr

/-- What the Claim Engine keeps for each region on the owner's side (R58, R61). -/
structure ServeEntry where
  /-- The handover state. -/
  handover : Handover
  /-- The forced mark. -/
  forced : Bool
  /-- The redirect timer (R58). -/
  redirect : Timer
  deriving DecidableEq, Repr

/-- The Claim Engine. -/
structure ClaimEngine where
  /-- The claim records, by region (R41). -/
  records : Vector (Option ClaimRecord) 128
  /-- The owner claim table in arrival order (R55). -/
  table : List TableEntry
  /-- Handover state, forced mark and redirect timer, by region (R61). -/
  serve : Vector ServeEntry 128
  deriving DecidableEq, Repr

/-! ### Roster Unit (spec/05) -/

/-- The state of a roster entry (R90). -/
inductive PeerState where
  | absent
  | present
  | incompatible
  deriving DecidableEq, Repr

/-- The station state that a peer announced (spec/05 section 5.1). -/
inductive Announced where
  | active
  | leaving
  deriving DecidableEq, Repr

/-- A roster entry (spec/05 section 5.1). -/
structure RosterEntry where
  /-- ABSENT, PRESENT or INCOMPATIBLE. -/
  state : PeerState
  /-- Profile: major revision. -/
  major : BitVec 4
  /-- Profile: minor revision. -/
  minor : BitVec 4
  /-- Profile: presence period in 10 ms units, as sent. -/
  presence : Byte
  /-- Profile: refresh period in 100 ms units. -/
  refresh : Byte
  /-- Profile: home count, 0 to 128. -/
  homeCount : Nat
  /-- The announced state. -/
  announced : Announced
  /-- The silence timer (R98). -/
  silence : Timer
  /-- Frames heard, saturating. -/
  heard : Nat
  /-- Mismatch seen (R95). -/
  mismatch : Bool
  deriving DecidableEq, Repr

/-! ### Station Controller (spec/06) -/

/-- The station state (R106). -/
inductive Mode where
  | reset
  | config
  | listen
  | joining
  | active
  | leaving
  | offline
  | isolated
  deriving DecidableEq, Repr

/-- The cause of a transition (R106). -/
inductive Cause where
  | power
  | restart
  | command
  | listened
  | joined
  | line
  | clash
  | left
  deriving DecidableEq, Repr

/-- The configuration block, as the bytes written (R111, spec/10 section 10.2.3). -/
structure ConfigBlock where
  /-- The parameters at 0x8100 to 0x8107. -/
  params : Vector Byte 8
  /-- The home set at 0x8110 to 0x811F. -/
  homeSet : Vector Byte 16
  /-- The window table at 0x8140 to 0x815F (R125). -/
  windows : Vector Byte 32
  deriving DecidableEq, Repr

/-- The Station Controller. -/
structure Controller where
  /-- The station state. -/
  mode : Mode
  /-- The last transition cause. -/
  cause : Cause
  /-- The own ID sampled from the straps; 0 is no station. -/
  ownId : Station
  /-- The configuration block. -/
  config : ConfigBlock
  /-- The tick count (R107). -/
  ticks : Half
  /-- The listen timer (R113). -/
  listen : Timer
  /-- The leave timer (R117). -/
  leave : Timer
  /-- The presence timer (R115). -/
  presence : Timer
  /-- A PRESENCE is due (R115). -/
  presenceDue : Bool
  /-- The home backlog, ascending (R116). -/
  backlog : List Region
  /-- The LEAVE frame of this leave has been queued (R119). -/
  leaveQueued : Bool
  deriving DecidableEq, Repr

/-! ### Host Access Unit (spec/07) and the host port pins -/

/-- A parked write (R131). Lane k of `data` is bits 8k+7 to 8k and stands for the byte k places above the offset of the
access's word, which is `offset` rounded down to a multiple of 4 (R126). -/
structure ParkedWrite where
  /-- The region the write is for. -/
  region : Region
  /-- The access's address within the region. -/
  offset : Offset
  /-- The access's length: 1, 2 or 4. -/
  length : Nat
  /-- The written bus value. -/
  data : HostWord
  /-- The enabled byte lanes. -/
  lanes : BitVec 4
  deriving DecidableEq, Repr

/-- The answer of a host access: HERR low for OK, and HD (spec/10 section 10.4). -/
structure Answer where
  /-- OK (HERR low) or ERROR. -/
  ok : Bool
  /-- The lanes returned; 0 for ERROR and for a write (R126, R140). -/
  data : HostWord
  deriving DecidableEq, Repr

/-- The host port's pins that hold state here. -/
structure Port where
  /-- The level of nRST. -/
  nrstHigh : Bool
  /-- The answer of the last access, if any. -/
  answer : Option Answer
  deriving DecidableEq, Repr

/-! ### Command and Notice Unit (spec/08) -/

/-- The result of a command (spec/08 section 8.2.4). -/
inductive Result where
  | none
  | done
  | invalid (item : Nat)
  | busy
  | unknown
  | state
  | range
  | already
  | noRecord
  | noClaim
  | notOwner
  deriving DecidableEq, Repr

/-- The frame kinds (spec/10 section 10.1.2). -/
inductive FrameKind where
  | presence
  | join
  | leave
  | claim
  | wait
  | refuse
  | withdraw
  | handover
  | take
  | release
  | update
  | repair
  deriving DecidableEq, Repr

/-- Why a claim failed (R53). -/
inductive FailReason where
  | noAnswer
  | patience
  | refused
  | withdrawn
  | isolated
  | leave
  deriving DecidableEq, Repr

/-- Why a region was lost (spec/10 section 10.3). -/
inductive LostDetail where
  | handover
  | release
  | isolated
  | left
  | clash
  deriving DecidableEq, Repr

/-- Why a replica became STALE (R5). -/
inductive StaleDetail where
  | gap
  | ownerChange
  | reconcile
  | conflict
  deriving DecidableEq, Repr

/-- The first profile field that differs (R95). -/
inductive ProfileField where
  | revision
  | presencePeriod
  | refreshPeriod
  | homeCount
  deriving DecidableEq, Repr

/-- What a notice reports (spec/08 section 8.3.1). -/
inductive Notice where
  /-- A grant by HANDOVER, from a peer (R51). -/
  | grantedHandover (r : Region) (peer : Station) (origin : Origin)
  /-- A grant by this station's TAKE (R82). -/
  | grantedTake (r : Region) (origin : Origin) (stale : Bool)
  | claimFailed (r : Region) (peer : Option Station) (reason : FailReason) (origin : Origin)
  /-- An unsought grant by HANDOVER (R52). -/
  | unsoughtHandover (r : Region) (peer : Station)
  /-- An unsought grant by TAKE (R82). -/
  | unsoughtTake (r : Region)
  | writesLost (r : Region) (reason : FailReason) (count : Nat)
  | regionLost (r : Region) (peer : Option Station) (detail : LostDetail)
  | regionStale (r : Region) (peer : Option Station) (detail : StaleDetail)
  | conflict (r : Region) (rival : Station) (won : Bool)
  /-- A peer appeared by a JOIN, or else by a PRESENCE (R93). -/
  | peerJoined (p : Station) (byJoin : Bool)
  /-- A peer left, or else fell silent (R99, R100). -/
  | peerGone (p : Station) (byLeave : Bool)
  | profileMismatch (p : Station) (field : ProfileField)
  | peerIncompatible (p : Station) (major : BitVec 4)
  | state (mode : Mode) (cause : Cause)
  | frameDropped (kind : FrameKind) (r : Option Region)
  deriving DecidableEq, Repr

/-- A notice record: the notice with its stamp and number (R150). -/
structure NoticeRecord where
  /-- What it reports. -/
  notice : Notice
  /-- The tick count when it was placed. -/
  stamp : Half
  /-- The notice number given to it. -/
  number : Half
  deriving DecidableEq, Repr

/-- The Command and Notice Unit: the mailbox, the notice queue, the latched flags and the mask. -/
structure CommandUnit where
  /-- The mailbox argument. -/
  argument : Byte
  /-- The code of the last command written. -/
  command : Byte
  /-- The answer to it. -/
  result : Result
  /-- The notice queue, oldest first (R151). -/
  notices : List NoticeRecord
  /-- The overflow count, saturating. -/
  overflow : Nat
  /-- The running notice number (R150). -/
  number : Half
  /-- The OVERFLOW flag (R154). -/
  overflowFlag : Bool
  /-- The COMMAND_DONE flag. -/
  commandDone : Bool
  /-- The STATE_CHANGE flag. -/
  stateChange : Bool
  /-- The LINE flag. -/
  lineFlag : Bool
  /-- The mask; bit order of the flags (R156). -/
  mask : BitVec 5
  deriving DecidableEq, Repr

/-! ### Line Unit (spec/09) -/

/-- Why an owner refuses a claim (spec/10 section 10.1.2). -/
inductive RefuseReason where
  | notOwner
  | queueFull
  | leaving
  deriving DecidableEq, Repr

/-- A frame of the control queue as it is named before its capture (R166). -/
inductive QFrame where
  | join
  | leave
  | claim (r : Region)
  | wait (r : Region) (claimant : Station) (position : Nat)
  | refuse (r : Region) (claimant : Station) (reason : RefuseReason) (believed : Option Station)
  /-- A WITHDRAW; `forLeave` says that a LEAVE failure made it, which counts it among the leaving work (R118). -/
  | withdraw (r : Region) (forLeave : Bool)
  | handover (r : Region)
  | take (r : Region)
  | release (r : Region)
  | repair (r : Region)
  deriving DecidableEq, Repr

/-- An entry of the control queue. `fallen` says that what asked for the frame has ended: the record of a CLAIM (R43), or the
pending HANDOVER or RELEASE of a region that was yielded (R88). Such a frame is discarded at its capture. -/
structure QEntry where
  /-- The frame. -/
  frame : QFrame
  /-- It no longer stands. -/
  fallen : Bool
  deriving DecidableEq, Repr

/-- A to-send mark: the frame it stands for (R167). -/
inductive Mark where
  | join
  | claim (r : Region)
  | withdraw (r : Region) (forLeave : Bool)
  | take (r : Region)
  | handover (r : Region)
  | release (r : Region)
  deriving DecidableEq, Repr

/-- The payload of a frame of this part's protocol revision (spec/10 section 10.1.2). -/
inductive Payload where
  | presence (profile : Profile) (state : Byte) (owned : BitVec 128)
  | join (profile : Profile)
  | leave
  | claim
  | wait (claimant position : Byte)
  | refuse (claimant reason believed : Byte)
  | withdraw
  | handover (newOwner count : Byte) (ids : Vector Byte 3) (content : Vector Byte 128)
  | take (content : Vector Byte 128)
  | release
  | update (offset length : Byte) (data : List Byte)
  | repair
  deriving DecidableEq, Repr

/-- A captured frame: what its attempts send. -/
structure Frame where
  /-- Its header. -/
  header : Header
  /-- Its payload. -/
  payload : Payload
  deriving DecidableEq, Repr

/-- What the frame in flight is (R169). -/
inductive Job where
  | presence
  | update (r : Region)
  | control (q : QFrame)
  deriving DecidableEq, Repr

/-- The frame in flight (R160 to R164). -/
structure Flight where
  /-- What it is. -/
  job : Job
  /-- The number of the attempt about to be made or under way, 1 to 16. -/
  attempt : Nat
  /-- The captured frame, once captured (R163). -/
  frame : Option Frame
  /-- What asked for it has ended (R28, R43, R88): it is discarded at its capture or withdrawn before its next attempt. -/
  fallen : Bool
  /-- The length in us of the deferral wait that runs, if one runs (R160). -/
  wait : Option Nat
  /-- An attempt is under way (R161). -/
  transmitting : Bool
  /-- Of a TAKE: the replica was STALE at its capture (R81). R82 reports it by whichever record is live at the carry, so it stands
  beside the captured frame and not in the record that the capture found (log 32, DEDUCED). -/
  staleAtTake : Bool
  deriving DecidableEq, Repr

/-- What the burst on the line has been found to be (R159, R171). -/
inductive Burst where
  /-- Nothing yet, or not a good frame. -/
  | unknown
  /-- A good frame with this source byte. -/
  | good (source : Byte)
  /-- A burst that failed the tests of R171. -/
  | bad
  deriving DecidableEq, Repr

/-- The Line Unit. -/
structure LineUnit where
  /-- The control queue, oldest first (R166). -/
  queue : List QEntry
  /-- The waiting to-send marks, oldest first (R167). -/
  marks : List Mark
  /-- The frame in flight. -/
  flight : Option Flight
  /-- The rotation counter (R159). -/
  rotation : BitVec 5
  /-- The control run (R170). -/
  controlRun : Nat
  /-- The consecutive-drop count (R162). -/
  consecutive : Nat
  /-- Frames received good (R174). -/
  received : Nat
  /-- Check errors. -/
  checkErrors : Nat
  /-- Collisions. -/
  collisions : Nat
  /-- Drops. -/
  drops : Nat
  /-- Answers suppressed. -/
  suppressed : Nat
  /-- Carrier is on the line: the line is not idle (R159). It follows LRX as the commands tell it, also while the station is
  transmitting (log 33). -/
  carrier : Bool
  /-- What the burst on the line has been found to be. -/
  burst : Burst
  deriving DecidableEq, Repr

/-! ### The whole -/

/-- The image content: (image byte, value) with rising keys and no listed 0; an unlisted byte reads 0x00 (R2). -/
abbrev Image := List Host.Cell

/-- The state of the station. -/
structure State where
  /-- The host port's pins. -/
  port : Port
  /-- The Image Store. -/
  image : Image
  /-- The Region Directory. -/
  dir : Vector DirEntry 128
  /-- The Publication Unit. -/
  pub : Publication
  /-- The Claim Engine. -/
  claims : ClaimEngine
  /-- The Roster Unit; the entry of ID 0 is never used. -/
  roster : Vector RosterEntry 32
  /-- The Station Controller. -/
  ctl : Controller
  /-- The parked write buffer, oldest first (R131). -/
  parked : List ParkedWrite
  /-- The Command and Notice Unit. -/
  cmd : CommandUnit
  /-- The Line Unit. -/
  line : LineUnit
  /-- The commands that wait, first in, first out (the model's own field). -/
  pending : List Instr
  deriving DecidableEq, Repr

/-- Why a command faults: the part has no fault (INVENTORY.md, "Faults"), so there is no constructor. -/
inductive Fault where
  deriving DecidableEq, Repr

/-- Why a command is refused. -/
inductive Refusal where
  /-- No meaning yet: raised by no arm of exec. Safe. -/
  | notModelled (mnemonic : String)
  /-- The operands do not spell the row (`Instr.wellFormed`): raised by exec for such a term. Safe: the machine stops. -/
  | illFormed
  deriving DecidableEq, Repr

/-! ### Values after reset -/

/-- R11, and the release state of R71. -/
def DirEntry.reset : DirEntry :=
  { owner := none, role := .orphan, replica := .stale, lastSeq := 0, held := false, tenure := .stopped, staleAge := 0,
    repair := false, release := .idle }

/-- R39. DEDUCED (log 40): a part after pin reset has no bar on additions (R37, R108). -/
def Publication.reset : Publication :=
  { set := Vector.replicate 128 none, pointer := 127, refresh := .stopped, scan := .stopped, barred := false }

/-- R69, R58. -/
def ServeEntry.reset : ServeEntry := { handover := .idle, forced := false, redirect := .stopped }

/-- R69. -/
def ClaimEngine.reset : ClaimEngine :=
  { records := Vector.replicate 128 none, table := [], serve := Vector.replicate 128 ServeEntry.reset }

/-- R91. -/
def RosterEntry.reset : RosterEntry :=
  { state := .absent, major := 0, minor := 0, presence := 0, refresh := 0, homeCount := 0, announced := .active,
    silence := .stopped, heard := 0, mismatch := false }

/-- The defaults of pin reset (spec/06 section 6.4, spec/10 section 10.2.3, R125). -/
def ConfigBlock.reset : ConfigBlock :=
  { params := #v[0x0A, 0x03, 0x1E, 0x0A, 0x28, 0x14, 0x0A, 0x00]
    homeSet := Vector.replicate 16 0
    windows := Vector.replicate 32 0 }

/-- R106, R108, R110. -/
def Controller.reset : Controller :=
  { mode := .reset, cause := .power, ownId := 0, config := ConfigBlock.reset, ticks := 0, listen := .stopped,
    leave := .stopped, presence := .stopped, presenceDue := false, backlog := [], leaveQueued := false }

/-- R143, R153, R157. -/
def CommandUnit.reset : CommandUnit :=
  { argument := 0, command := 0, result := .none, notices := [], overflow := 0, number := 0, overflowFlag := false,
    commandDone := false, stateChange := false, lineFlag := false, mask := 0 }

/-- R175. -/
def LineUnit.reset : LineUnit :=
  { queue := [], marks := [], flight := none, rotation := 0, controlRun := 0, consecutive := 0, received := 0,
    checkErrors := 0, collisions := 0, drops := 0, suppressed := 0, carrier := false, burst := .unknown }

/-- The station in pin reset: nRST low and every piece of state at its pin reset value (R108). -/
def State.reset : State :=
  { port := { nrstHigh := false, answer := none }
    image := []
    dir := Vector.replicate 128 DirEntry.reset
    pub := Publication.reset
    claims := ClaimEngine.reset
    roster := Vector.replicate 32 RosterEntry.reset
    ctl := Controller.reset
    parked := []
    cmd := CommandUnit.reset
    line := LineUnit.reset
    pending := [] }

end Sys2Proof.Machine
end

