-- ==== Sys2Proof/Machine/Image.lean ====
section
/-! DEFINITION. The Image Store: reading and writing bytes of the image in its one canonical form (spec/01 section 1.1). -/

namespace Sys2Proof.Machine

/-- Image byte 128 x r + o (spec/01 section 1.1). -/
def byteAddress (r : Region) (o : Nat) : Nat := 128 * r.val + o

/-- The byte at an image address; 0x00 where nothing is listed (R2). -/
def imageRead : Image → Nat → Byte
  | [], _ => 0
  | (k, v) :: rest, a => if k = a then v else imageRead rest a

/-- The image with one byte written, in canonical form. -/
def imageWrite : Image → Nat → Byte → Image
  | [], a, b => if b = 0 then [] else [(a, b)]
  | (k, v) :: rest, a, b =>
    if a < k then (if b = 0 then (k, v) :: rest else (a, b) :: (k, v) :: rest)
    else if a = k then (if b = 0 then rest else (a, b) :: rest)
    else (k, v) :: imageWrite rest a b

/-- Consecutive bytes written from an address upward. -/
def imageWriteBytes : Image → Nat → List Byte → Image
  | m, _, [] => m
  | m, a, b :: bs => imageWriteBytes (imageWrite m a b) (a + 1) bs

/-- The canonical form: addresses strictly rising, every address in the image, no listed byte 0x00. -/
def imageWf : Image → Bool
  | [] => true
  | [(k, v)] => k < 16384 && v != 0
  | (k, v) :: (k', v') :: rest => v != 0 && k < k' && imageWf ((k', v') :: rest)

/-- The 128 bytes of a region, as a capture copies them (R1). -/
def regionContent (m : Image) (r : Region) : Vector Byte 128 :=
  Vector.ofFn fun o => imageRead m (byteAddress r o.val)

/-- The bytes of a region replaced by a frame's content (R17, R19, R20). -/
def writeRegion (m : Image) (r : Region) (content : Vector Byte 128) : Image :=
  imageWriteBytes m (byteAddress r 0) content.toList

/-- Byte lane k of the host data bus. -/
def laneByte (data : HostWord) (k : Nat) : Byte := data.extractLsb' (8 * k) 8

/-- The enabled lanes of a host word written from the offset that lane 0 stands for (R126, R130). -/
def writeLanes (m : Image) (r : Region) (base : Nat) (lanes : BitVec 4) (data : HostWord) : Image :=
  [0, 1, 2, 3].foldl
    (fun m k => if lanes.getLsbD k then imageWrite m (byteAddress r (base + k)) (laneByte data k) else m) m

end Sys2Proof.Machine
end

