-- ==== Sys2Proof/Machine/Operands.lean ====
section
/-! DEFINITION. The operand forms: the byte lanes of a host access (R126), the translation of a window access (R127), the fields
of the configuration block (spec/10 section 10.2.3), and the ID, region and kind fields of a frame (spec/10 section 10.1, R177, R178). -/

namespace Sys2Proof.Machine

/-! ### Host accesses -/

/-- The group of lanes that an access's byte enables form: its first lane and its length, if they form one (R126). -/
def laneGroup (lanes : BitVec 4) : Option (Nat × Nat) :=
  if lanes = 0b0001 then some (0, 1)
  else if lanes = 0b0010 then some (1, 1)
  else if lanes = 0b0100 then some (2, 1)
  else if lanes = 0b1000 then some (3, 1)
  else if lanes = 0b0011 then some (0, 2)
  else if lanes = 0b1100 then some (2, 2)
  else if lanes.getLsbD 0 && lanes.getLsbD 3 then some (0, 4)
  else none

/-- The lowest enabled lane. -/
def lowLane (lanes : BitVec 4) : Nat :=
  if lanes.getLsbD 0 then 0 else if lanes.getLsbD 1 then 1 else if lanes.getLsbD 2 then 2 else 3

/-- The highest enabled lane. -/
def highLane (lanes : BitVec 4) : Nat :=
  if lanes.getLsbD 3 then 3 else if lanes.getLsbD 2 then 2 else if lanes.getLsbD 1 then 1 else 0

/-- The word that returns a byte on every lane of a group, and 0 on the lanes outside it (R126). -/
def gatherLanes (first len : Nat) (byteAt : Nat → Byte) : HostWord :=
  [0, 1, 2, 3].foldl
    (fun w k => if first ≤ k ∧ k < first + len then w ||| ((byteAt k).setWidth 32 <<< (8 * k)) else w) 0

/-! ### The configuration block -/

/-- A parameter byte of the block, by its offset from 0x8100. -/
def ConfigBlock.param (c : ConfigBlock) (i : Fin 8) : Nat := (pick c.params i).toNat

/-- Presence period P in ms. -/
def ConfigBlock.presenceMs (c : ConfigBlock) : Nat := 10 * c.param 0

/-- Liveness misses M, bits 3 to 0 of 0x8101. -/
def ConfigBlock.misses (c : ConfigBlock) : Nat := c.param 1 % 16

/-- Answer timeout in ms. -/
def ConfigBlock.answerMs (c : ConfigBlock) : Nat := c.param 2

/-- Claim patience in ms. -/
def ConfigBlock.patienceMs (c : ConfigBlock) : Nat := 100 * c.param 3

/-- Orphan wait in ms. -/
def ConfigBlock.orphanMs (c : ConfigBlock) : Nat := c.param 4

/-- Minimum tenure in ms. -/
def ConfigBlock.tenureMs (c : ConfigBlock) : Nat := c.param 5

/-- Refresh period in ms, 0 for off. -/
def ConfigBlock.refreshMs (c : ConfigBlock) : Nat := 100 * c.param 6

/-- The listen interval, M x P (spec/06 section 6.4). -/
def ConfigBlock.listenMs (c : ConfigBlock) : Nat := c.misses * c.presenceMs

/-- The repair delay, 2 x P (spec/06 section 6.4). -/
def ConfigBlock.repairMs (c : ConfigBlock) : Nat := 2 * c.presenceMs

/-- Byte j, bit i of the home set stands for region 8 x j + i. -/
def ConfigBlock.inHomeSet (c : ConfigBlock) (r : Region) : Bool :=
  (pick c.homeSet ⟨r.val / 8, by omega⟩).getLsbD (r.val % 8)

/-- The regions of the home set, ascending. -/
def ConfigBlock.homeRegions (c : ConfigBlock) : List Region := allRegions.filter c.inHomeSet

/-- A byte of window w's entry. -/
def ConfigBlock.windowByte (c : ConfigBlock) (w : Fin 8) (i : Fin 4) : Byte :=
  pick c.windows ⟨4 * w.val + i.val, by omega⟩

/-- A window's entry, read from its four bytes (spec/07 section 7.1). -/
structure Window where
  enabled : Bool
  writeProtect : Bool
  claimOnWrite : Bool
  refuseStale : Bool
  hostBase : Nat
  size : Nat
  imageStart : Nat
  deriving DecidableEq, Repr

/-- Window w of the block (spec/10 section 10.2.3). -/
def ConfigBlock.window (c : ConfigBlock) (w : Fin 8) : Window :=
  let a := c.windowByte w 0
  { enabled := a.getLsbD 0, writeProtect := a.getLsbD 1, claimOnWrite := a.getLsbD 2, refuseStale := a.getLsbD 3
    hostBase := (c.windowByte w 1).toNat, size := (c.windowByte w 2).toNat, imageStart := (c.windowByte w 3).toNat }

/-- A window covers host unit u (R127). -/
def Window.covers (w : Window) (u : Nat) : Bool :=
  w.enabled && 1 ≤ w.size && w.hostBase ≤ u && u < w.hostBase + w.size && w.imageStart + (u - w.hostBase) ≤ 127

/-- The covering window of lowest index (R127). -/
def coveringWindow (c : ConfigBlock) (u : Nat) : Option Window :=
  ((List.finRange 8).map c.window).find? fun w => w.covers u

/-- The host unit of a window-area word: 32 words of 4 bytes to a unit. -/
def wordUnit (word : BitVec 13) : Nat := word.toNat / 32

/-- The offset in its region of a window-area word. -/
def wordOffset (word : BitVec 13) : Nat := 4 * (word.toNat % 32)

/-- The window and the region that take an access at a window-area word (R127). -/
def windowTarget (c : ConfigBlock) (word : BitVec 13) : Option (Window × Region) :=
  match coveringWindow c (wordUnit word) with
  | some w =>
    let r := w.imageStart + (wordUnit word - w.hostBase)
    if h : r < 128 then some (w, ⟨r, h⟩) else none
  | none => none

/-- An offset within a region as a number that stays one. -/
def toOffset (n : Nat) : Offset := ⟨n % 128, Nat.mod_lt n (by decide)⟩

/-- A window item fails the JOIN check (R112). -/
def Window.fails (w : Window) : Bool :=
  w.enabled && (w.size == 0 || w.imageStart + w.size > 128 || w.hostBase + w.size > 256)

/-- The items that fail the JOIN check, in ascending order; the home set always passes (R112). -/
def failingItems (ownId : Station) (c : ConfigBlock) : List Nat :=
  (if ownId = 0 then [0] else []) ++
  (if c.param 0 < 2 then [1] else []) ++
  (if c.misses < 2 ∨ 7 < c.misses then [2] else []) ++
  (if c.param 2 < 5 then [3] else []) ++
  (if c.param 3 < 1 then [4] else []) ++
  (if c.param 4 < 10 then [5] else []) ++
  ((List.finRange 8).filter fun w => (c.window w).fails).map fun w => 8 + w.val

/-! ### Fields of a frame -/

/-- The station that an ID byte names: 1 to 31, or none (spec/10 section 10.1.2, R177, R178). -/
def stationOf (b : Byte) : Option Station :=
  if h : b.toNat < 32 then (if b.toNat = 0 then none else some ⟨b.toNat, h⟩) else none

/-- The region that a region byte names: 0 to 127, or none (R177). -/
def regionOf (b : Byte) : Option Region := if h : b.toNat < 128 then some ⟨b.toNat, h⟩ else none

/-- A station ID as a byte, 0 for none. -/
def stationByte (p : Option Station) : Byte :=
  match p with
  | some p => BitVec.ofNat 8 p.val
  | none => 0

/-- A region as a header byte. -/
def regionByte (r : Region) : Byte := BitVec.ofNat 8 r.val

/-- The reason byte of a REFUSE (spec/10 section 10.1.2); other values name none (R178). -/
def reasonOf (b : Byte) : Option RefuseReason :=
  if b = 1 then some .notOwner else if b = 2 then some .queueFull else if b = 3 then some .leaving else none

/-- The code of a REFUSE reason. -/
def reasonByte : RefuseReason → Byte
  | .notOwner => 1
  | .queueFull => 2
  | .leaving => 3

/-- The home count of a frame's profile, 129 to 255 taken as 128 (R178). -/
def profileHomes (p : Profile) : Nat := min p.homeCount.toNat 128

/-- The minor revision of a frame's profile: bits 3 to 0 (R178). -/
def profileMinor (p : Profile) : BitVec 4 := p.minor.setWidth 4

/-- The class of a sequence against the last one (R12). -/
inductive SeqClass where
  | same
  | next
  | gap
  | older
  deriving DecidableEq, Repr

/-- R12: the class of sequence s where the last sequence is L, by s - L modulo 65 536. -/
def classify (s L : Half) : SeqClass :=
  let d := (s - L).toNat
  if d = 0 then .same else if d = 1 then .next else if d ≤ 32767 then .gap else .older

/-- Sequence a is newer than b (spec/00 section 5.4). -/
def newer (a b : Half) : Bool := classify a b == .next || classify a b == .gap

/-- A code written whole is the argument and the region it names: 0 to 127 (R142). -/
def argumentRegion (a : Byte) : Option Region := regionOf a

/-! ### Timers -/

/-- A timer started, or restarted, at a duration (spec/00 section 5.3). -/
def Timer.start (d : Nat) : Timer := .running d

/-- A timer that is expired at its start where the duration is 0 (R9, R107). -/
def Timer.startOrExpire (d : Nat) : Timer := if d = 0 then .stopped else .running d

/-- One tick of a timer; a count that has run out waits for its expiry to be taken (R107). -/
def Timer.tick : Timer → Timer
  | .stopped => .stopped
  | .running n => .running (n - 1)

/-- The timer runs. -/
def Timer.isRunning : Timer → Bool
  | .stopped => false
  | .running _ => true

/-- The timer's duration has run out, and its expiry is to be taken. -/
def Timer.due : Timer → Bool
  | .running 0 => true
  | _ => false

/-! ### Modes -/

/-- The states in which received frames are taken (spec/06 section 6.1). -/
def Mode.receives : Mode → Bool
  | .listen | .joining | .active | .leaving => true
  | .reset | .config | .offline | .isolated => false

/-- The states in which the station starts attempts (R161). -/
def Mode.transmits : Mode → Bool
  | .joining | .active | .leaving => true
  | .reset | .config | .listen | .offline | .isolated => false

/-- The station owns the region: OWNER or HANDING (spec/01 section 1.2). -/
def Role.owns : Role → Bool
  | .owner | .handing => true
  | .peer | .orphan => false

end Sys2Proof.Machine
end

