-- ==== Sys2Proof/Machine/Flags.lean ====
section
/-! DEFINITION. Notices, event flags and the interrupt line (spec/08 sections 8.3 and 8.4). -/

namespace Sys2Proof.Machine

/-- A block places a notice: it is numbered, stamped and queued, or dropped and counted where the queue is full (R150, R151). -/
def State.notify (n : Notice) (s : State) : State :=
  let c := { s.cmd with number := s.cmd.number + 1 }
  if s.cmd.notices.length < Config.maxNotices then
    { s with cmd := { c with notices := s.cmd.notices ++ [{ notice := n, stamp := s.ctl.ticks, number := s.cmd.number }] } }
  else
    { s with cmd := { c with overflow := satSucc s.cmd.overflow, overflowFlag := true } }

/-- Several notices of one act, in order (R150). -/
def State.notifyAll (ns : List Notice) (s : State) : State := ns.foldl (fun s n => s.notify n) s

/-- The NOTICE flag: set exactly while the queue holds a record (R154). -/
def CommandUnit.noticeFlag (c : CommandUnit) : Bool := !c.notices.isEmpty

/-- The five flags as the flags location shows them: bit 0 NOTICE, 1 OVERFLOW, 2 COMMAND_DONE, 3 STATE_CHANGE, 4 LINE
(spec/10 section 10.2.1). -/
def CommandUnit.flags (c : CommandUnit) : BitVec 5 :=
  (BitVec.ofBool c.lineFlag) ++ (BitVec.ofBool c.stateChange) ++ (BitVec.ofBool c.commandDone) ++
    (BitVec.ofBool c.overflowFlag) ++ (BitVec.ofBool c.noticeFlag)

/-- nINT is driven low: a flag is set whose mask bit is 1 (R156). -/
def State.interrupt (s : State) : Bool := s.cmd.flags &&& s.cmd.mask != 0

/-- COMMAND_DONE is latched (R142, R154). -/
def State.latchDone (s : State) : State := { s with cmd := { s.cmd with commandDone := true } }

/-- LINE is latched (R154, R162). -/
def State.latchLine (s : State) : State := { s with cmd := { s.cmd with lineFlag := true } }

/-- The latched flags whose bit in the written value is 1 are cleared (R155). -/
def CommandUnit.clearFlags (c : CommandUnit) (bits : Byte) : CommandUnit :=
  { c with overflowFlag := c.overflowFlag && !bits.getLsbD 1
           commandDone := c.commandDone && !bits.getLsbD 2
           stateChange := c.stateChange && !bits.getLsbD 3
           lineFlag := c.lineFlag && !bits.getLsbD 4 }

/-- A transition other than the entry to RESET: state and cause in one act, with its STATE notice and STATE_CHANGE (R106). -/
def State.transition (m : Mode) (c : Cause) (s : State) : State :=
  let s := { s with ctl := { s.ctl with mode := m, cause := c }, cmd := { s.cmd with stateChange := true } }
  s.notify (.state m c)

/-- The result of a command is written (R142). -/
def State.setResult (r : Result) (s : State) : State := { s with cmd := { s.cmd with result := r } }

/-- A host access is answered. -/
def State.respond (ok : Bool) (data : HostWord) (s : State) : State :=
  { s with port := { s.port with answer := some { ok := ok, data := data } } }

end Sys2Proof.Machine
end

