-- ==== Sys2Proof/Machine/Ops.lean ====
section
/-! DEFINITION. The named operations that the commands share: the directory, the publish set, the control queue and its marks,
claim records, serving, releasing, leaving, conflicts, grants and losses. -/

namespace Sys2Proof.Machine

/-! ### Tables by region -/

/-- The directory entry of a region. -/
def State.entry (s : State) (r : Region) : DirEntry := pick s.dir r

/-- The directory entry of one region replaced. -/
def State.setEntry (r : Region) (e : DirEntry) (s : State) : State := { s with dir := put s.dir r e }

/-- What the Claim Engine keeps for a region on the owner's side. -/
def State.serving (s : State) (r : Region) : ServeEntry := pick s.claims.serve r

/-- That entry replaced. -/
def State.setServing (r : Region) (e : ServeEntry) (s : State) : State :=
  { s with claims := { s.claims with serve := put s.claims.serve r e } }

/-- The claim record of a region, closing or not. -/
def State.record (s : State) (r : Region) : Option ClaimRecord := pick s.claims.records r

/-- The claim record of one region replaced. -/
def State.setRecord (r : Region) (c : Option ClaimRecord) (s : State) : State :=
  { s with claims := { s.claims with records := put s.claims.records r c } }

/-- The roster entry of a station. -/
def State.peer (s : State) (p : Station) : RosterEntry := pick s.roster p

/-- The roster entry of one station replaced. -/
def State.setPeer (p : Station) (e : RosterEntry) (s : State) : State := { s with roster := put s.roster p e }

/-- The roster entry of a station is PRESENT. -/
def State.isPresent (s : State) (p : Station) : Bool := (s.peer p).state == .present

/-- An act taken for every region in ascending order. -/
def State.forRegions (f : Region → State → State) (s : State) : State := allRegions.foldl (fun s r => f r s) s

/-! ### The control queue and its marks (spec/09 section 9.6) -/

/-- The frame that a to-send mark stands for (R167). -/
def Mark.frame : Mark → QFrame
  | .join => .join
  | .claim r => .claim r
  | .withdraw r l => .withdraw r l
  | .take r => .take r
  | .handover r => .handover r
  | .release r => .release r

/-- The frame is appended at the tail of the control queue. -/
def LineUnit.append (q : QFrame) (l : LineUnit) : LineUnit := { l with queue := l.queue ++ [{ frame := q, fallen := false }] }

/-- The control queue has room (R166). -/
def LineUnit.room (l : LineUnit) : Bool := l.queue.length < Config.maxQueue

/-- A frame that a record, a region or the JOIN needs is handed to the Line Unit: appended, or else marked to send (R166, R167).
After the LEAVE frame has been queued it is discarded (R119). -/
def State.hand (m : Mark) (s : State) : State :=
  if s.ctl.leaveQueued then s
  else if s.line.room then { s with line := s.line.append m.frame }
  else { s with line := { s.line with marks := s.line.marks ++ [m] } }

/-- A WAIT, REFUSE or REPAIR is handed to the Line Unit: appended, or else suppressed and counted (R168). -/
def State.answer (q : QFrame) (s : State) : State :=
  if s.ctl.leaveQueued then s
  else if s.line.room then { s with line := s.line.append q }
  else { s with line := { s.line with suppressed := satSucc s.line.suppressed } }

/-- A WITHDRAW that is appended if the control queue has room and else not sent (R43, R46). DESIGN CHOICE (log 39): it is not leaving
work (R118), also where the record whose CLAIM was carried had failed with LEAVE. -/
def State.withdrawIfRoom (r : Region) (s : State) : State :=
  if s.ctl.leaveQueued then s
  else if s.line.room then { s with line := s.line.append (.withdraw r false) }
  else s

/-- An owner clears marks (R167). -/
def State.clearMarks (p : Mark → Bool) (s : State) : State :=
  { s with line := { s.line with marks := s.line.marks.filter fun m => !p m } }

/-- The mark is one of a claim record of the region. -/
def Mark.ofRecord (r : Region) : Mark → Bool
  | .claim x | .take x | .withdraw x _ => x == r
  | .join | .handover _ | .release _ => false

/-- The mark is a WITHDRAW of the region: its record is closing (R54). -/
def Mark.isWithdraw (r : Region) : Mark → Bool
  | .withdraw x _ => x == r
  | .join | .claim _ | .take _ | .handover _ | .release _ => false

/-- The frames of the Line Unit that satisfy a test no longer stand: queued ones are discarded at their capture, and one in
flight is discarded or withdrawn before its next attempt. -/
def LineUnit.fell (p : QFrame → Bool) (l : LineUnit) : LineUnit :=
  { l with
    queue := l.queue.map fun e => if p e.frame then { e with fallen := true } else e
    flight := l.flight.map fun f =>
      match f.job with
      | .control q => if p q then { f with fallen := true } else f
      | .presence | .update _ => f }

/-- The same, on the state. -/
def State.fell (p : QFrame → Bool) (s : State) : State := { s with line := s.line.fell p }

/-! ### The publish set (spec/02 section 2.1) -/

/-- The publish entry of a region. -/
def State.pubEntry (s : State) (r : Region) : Option PubEntry := pick s.pub.set r

/-- The publish entry of one region replaced. -/
def State.setPub (r : Region) (e : Option PubEntry) (s : State) : State := { s with pub := { s.pub with set := put s.pub.set r e } }

/-- An addition to the publish set is made for the region: its role is OWNER, and the station has been ACTIVE since it last queued a
LEAVE frame (R23, R37). -/
def State.additionMade (s : State) (r : Region) : Bool := (s.entry r).role == .owner && !s.pub.barred

/-- A span addition (R23). -/
def State.addSpan (r : Region) (a b : Offset) (s : State) : State :=
  if s.additionMade r then
    match s.pubEntry r with
    | none => s.setPub r (some { low := a, high := b, full := false })
    | some e => s.setPub r (some { e with low := min e.low a, high := max e.high b })
  else s

/-- A full addition (R23). -/
def State.addFull (r : Region) (s : State) : State :=
  if s.additionMade r then
    match s.pubEntry r with
    | none => s.setPub r (some { low := 0, high := 127, full := true })
    | some e => s.setPub r (some { e with full := true })
  else s

/-- A full addition for every region: it is made for those whose role is OWNER (R31, R32). -/
def State.addFullAll (s : State) : State := s.forRegions State.addFull

/-- The region's role leaves OWNER: its publish entry is removed (R25), and an UPDATE of it in flight no longer stands (R28). -/
def State.unpublish (r : Region) (s : State) : State :=
  let s := s.setPub r none
  { s with line := { s.line with flight := s.line.flight.map fun f => if f.job == .update r then { f with fallen := true } else f } }

/-- The publish set emptied (R37, R38). -/
def State.emptyPublish (s : State) : State :=
  { s with pub := { s.pub with set := Vector.replicate 128 none, refresh := .stopped, scan := .stopped } }

/-! ### The directory entry -/

/-- The replica becomes VALID: stale age 0 and repair mark no (R4, R6, R7). -/
def DirEntry.makeValid (e : DirEntry) : DirEntry := { e with replica := .valid, staleAge := 0, repair := false }

/-- The replica becomes STALE. A VALID one starts its stale age at 0; a STALE one is left as it is (R5). -/
def DirEntry.makeStale (e : DirEntry) : DirEntry :=
  match e.replica with
  | .valid => { e with replica := .stale, staleAge := 0 }
  | .stale => e

/-- The entry of a region that has become an orphan: owner none, held no, tenure stopped, the rest kept (R8, R9, R74). -/
def DirEntry.orphaned (e : DirEntry) : DirEntry := { e with owner := none, role := .orphan, held := false, tenure := .stopped }

/-- The replica of a region becomes STALE, with its REGION_STALE notice if it was VALID; the peer is the directory owner after
the change (R5). -/
def State.markStale (r : Region) (d : StaleDetail) (s : State) : State :=
  let e := s.entry r
  let s := s.setEntry r e.makeStale
  match e.replica with
  | .valid => s.notify (.regionStale r e.owner d)
  | .stale => s

/-- A tenure of this station starts (R8, R9, R17, R82): owner own ID, role OWNER, sequence taken, replica VALID, held no, tenure
timer started. The redirect timer stops (R58). -/
def State.startTenure (r : Region) (seq : Half) (s : State) : State :=
  let e := (s.entry r).makeValid
  let s := s.setEntry r { e with owner := some s.ctl.ownId, role := .owner, lastSeq := seq, held := false,
                                 tenure := Timer.startOrExpire s.ctl.config.tenureMs }
  s.setServing r { s.serving r with redirect := .stopped }

/-- The region passes to a peer whose content has been taken: R19, R20. -/
def State.follow (r : Region) (p : Station) (seq : Half) (s : State) : State :=
  let e := (s.entry r).makeValid
  s.setEntry r { e with owner := some p, role := .peer, lastSeq := seq }

/-! ### Claim records (spec/03 section 3.2, spec/04 section 4.2) -/

/-- The region's record is closing: it has a record, and the record's to-send mark is WITHDRAW (R54). -/
def State.closing (s : State) (r : Region) : Bool := (s.record r).isSome && s.line.marks.any (Mark.isWithdraw r)

/-- The region's record, where it has one that is not closing. -/
def State.liveRecord (s : State) (r : Region) : Option ClaimRecord := if s.closing r then none else s.record r

/-- The slots in use (R41). -/
def State.recordCount (s : State) : Nat := (s.claims.records.toList.filter Option.isSome).length

/-- A CLAIM of the region's record is pending: queued, marked to send or in flight (R43). -/
def State.claimPending (s : State) (r : Region) : Bool :=
  s.line.queue.any (fun e => e.frame == .claim r && !e.fallen) || s.line.marks.contains (.claim r) ||
    match s.line.flight with
    | some f => f.job == .control (.claim r) && !f.fallen
    | none => false

/-- The record needs a CLAIM (R43). -/
def State.needClaim (r : Region) (s : State) : State := if s.claimPending r then s else s.hand (.claim r)

/-- The record's frames end with it: its CLAIM is no longer that of a record, and its marks leave the order (R43, R167). -/
def State.endRecordFrames (r : Region) (s : State) : State :=
  (s.fell fun q => q == .claim r).clearMarks (Mark.ofRecord r)

/-- The record of a region is freed. -/
def State.freeRecord (r : Region) (s : State) : State := (s.endRecordFrames r).setRecord r none

/-- A record as it is created (R42). -/
def newRecord (origin : Origin) (kind : ClaimKind) : ClaimRecord :=
  { origin := origin, kind := kind, state := .asking, attempts := 0, answer := .stopped, patience := .stopped,
    orphanWait := .stopped, deferredTo := none, queuedAt := none }

/-- A claim for the region may be requested: ACTIVE, PEER or ORPHAN, no live record, and a slot free or a closing record (R42). -/
def State.claimTaken (s : State) (r : Region) : Bool :=
  s.ctl.mode == .active && !(s.entry r).role.owns && (s.liveRecord r).isNone &&
    (s.recordCount < Config.maxRecords || s.closing r)

/-- A request for a claim that is taken: a closing record is freed without its WITHDRAW, the record is created, and its CLAIM is
handed over (R42). -/
def State.requestClaim (r : Region) (origin : Origin) (s : State) : State :=
  let kind := if (s.entry r).role == .orphan then ClaimKind.orphan else .normal
  ((s.freeRecord r).setRecord r (some (newRecord origin kind))).needClaim r

/-- The record leaves ASKING without a carried CLAIM: a mark that waits for its CLAIM is no longer needed (R167). -/
def State.dropClaimMark (r : Region) (s : State) : State := s.clearMarks fun m => m == .claim r

/-- A NORMAL record becomes an ORPHAN claim (R44, R75). -/
def State.toOrphanClaim (r : Region) (s : State) : State :=
  match s.liveRecord r with
  | some c =>
    if c.kind = .normal then
      (s.setRecord r (some { c with kind := .orphan, state := .asking, attempts := 0, answer := .stopped, patience := .stopped,
                                    queuedAt := none })).needClaim r
    else s
  | none => s

/-- An ORPHAN record becomes a NORMAL record toward the region's new directory owner (R78). -/
def State.toNormalClaim (r : Region) (s : State) : State :=
  match s.liveRecord r with
  | some c =>
    if c.kind = .orphan then
      ((s.setRecord r (some { c with kind := .normal, state := .asking, attempts := 0, orphanWait := .stopped,
                                     deferredTo := none })).clearMarks fun m => m == .take r).needClaim r
    else s
  | none => s

/-- The parked writes of a region (R131). -/
def State.parkedFor (s : State) (r : Region) : List ParkedWrite := s.parked.filter fun w => w.region == r

/-- The buffer without a region's entries, the others in their order (R135, R136). -/
def State.dropParked (r : Region) (s : State) : State := { s with parked := s.parked.filter fun w => w.region != r }

/-- A claim record fails (R53, R136): its frames end, CLAIM_FAILED and, where parked writes are discarded, WRITES_LOST are placed,
and then a WITHDRAW is handed over or the record becomes closing, or it is freed with no frame. -/
def State.failRecord (r : Region) (reason : FailReason) (s : State) : State :=
  match s.liveRecord r with
  | some c =>
    let s := s.endRecordFrames r
    let s := s.notify (.claimFailed r (s.entry r).owner reason c.origin)
    let lost := (s.parkedFor r).length
    let s := s.dropParked r
    let s := if lost = 0 then s else s.notify (.writesLost r reason lost)
    let mayBeHeld := c.state = .asked ∨ c.state = .queued
    let withdraws := reason = .noAnswer ∨ reason = .patience ∨ reason = .withdrawn ∨ reason = .leave
    if mayBeHeld ∧ withdraws ∧ s.ctl.leaveQueued = false ∧ s.line.room = false then
      (s.setRecord r (some { c with answer := .stopped, patience := .stopped, orphanWait := .stopped })).hand
        (.withdraw r (reason == .leave))
    else if mayBeHeld ∧ withdraws then (s.setRecord r none).hand (.withdraw r (reason == .leave))
    else s.setRecord r none
  | none => s

/-- The record's CLAIMs are exhausted (R44): NO_ANSWER where the directory owner is PRESENT, and else an ORPHAN claim. -/
def State.exhaust (r : Region) (s : State) : State :=
  match (s.entry r).owner with
  | some p => if s.isPresent p then s.failRecord r .noAnswer else s.toOrphanClaim r
  | none => s.toOrphanClaim r

/-! ### Parked writes at a grant (spec/07 section 7.4) -/

/-- The offset that lane 0 of a parked write's word stands for. -/
def ParkedWrite.base (w : ParkedWrite) : Nat := 4 * (w.offset.val / 4)

/-- The lowest enabled offset of a parked write. -/
def ParkedWrite.low (w : ParkedWrite) : Nat := w.base + lowLane w.lanes

/-- The highest enabled offset of a parked write. -/
def ParkedWrite.high (w : ParkedWrite) : Nat := w.base + highLane w.lanes

/-- The lowest enabled offset of several parked writes. -/
def lowOf (w : ParkedWrite) (ws : List ParkedWrite) : Nat := ws.foldl (fun (a : Nat) (x : ParkedWrite) => min a x.low) w.low

/-- The highest enabled offset of several parked writes. -/
def highOf (w : ParkedWrite) (ws : List ParkedWrite) : Nat := ws.foldl (fun (a : Nat) (x : ParkedWrite) => max a x.high) w.high

/-- The region's parked writes are applied in arrival order, with one span addition that covers them (R135). -/
def State.applyParked (r : Region) (s : State) : State :=
  match s.parkedFor r with
  | [] => s
  | w :: ws =>
    let s := { s with image := (w :: ws).foldl (fun (m : Image) (x : ParkedWrite) => writeLanes m r x.base x.lanes x.data) s.image }
    let s := s.dropParked r
    s.addSpan r (toOffset (lowOf w ws)) (toOffset (highOf w ws))

/-- The claim for a region ends at ownership by a received HANDOVER: granted, or unsought where no live record stands (R51, R52). -/
def State.grantByHandover (r : Region) (src : Station) (s : State) : State :=
  match s.liveRecord r with
  | some c => ((s.freeRecord r).notify (.grantedHandover r src c.origin)).applyParked r
  | none => (s.freeRecord r).notify (.unsoughtHandover r src)

/-- The claim for a region ends at ownership by this station's carried TAKE; `stale` is what its capture noted (R81, R82). -/
def State.grantByTake (r : Region) (stale : Bool) (s : State) : State :=
  match s.liveRecord r with
  | some c => ((s.freeRecord r).notify (.grantedTake r c.origin stale)).applyParked r
  | none => (s.freeRecord r).notify (.unsoughtTake r)

/-! ### The owner claim table, serving and releasing (spec/03 sections 3.3 and 3.4, spec/04 section 4.1.1) -/

/-- The queue of a region, head first (R55). -/
def State.claimants (s : State) (r : Region) : List Station := (s.claims.table.filter fun e => e.region == r).map TableEntry.claimant

/-- Every table entry of a region removed (R55). -/
def State.clearTable (r : Region) (s : State) : State :=
  { s with claims := { s.claims with table := s.claims.table.filter fun e => e.region != r } }

/-- One claimant's entry for a region removed (R55, R59). -/
def State.removeClaimant (r : Region) (p : Station) (s : State) : State :=
  { s with claims := { s.claims with table := s.claims.table.filter fun e => !(e.region == r && e.claimant == p) } }

/-- Every entry of a claimant removed (R60). -/
def State.removeEverywhere (p : Station) (s : State) : State :=
  { s with claims := { s.claims with table := s.claims.table.filter fun e => e.claimant != p } }

/-- The table has room for one more entry of the region (R55, R56). -/
def State.tableRoom (s : State) (r : Region) : Bool :=
  (s.claimants r).length < Config.maxPerRegion && s.claims.table.length < Config.maxTable

/-- An entry appended at the tail of the region's queue. -/
def State.appendClaimant (r : Region) (p : Station) (s : State) : State :=
  { s with claims := { s.claims with table := s.claims.table ++ [{ region := r, claimant := p }] } }

/-- A claimant's position in the region's queue, counted from 1 (R55). -/
def State.position (s : State) (r : Region) (p : Station) : Nat := (s.claimants r).idxOf p + 1

/-- A HANDOVER of the region is pending (R61). -/
def State.handoverPending (s : State) (r : Region) : Bool := (s.serving r).handover != .idle

/-- A RELEASE of the region is pending (R70). -/
def State.releasePending (s : State) (r : Region) : Bool := (s.entry r).release != .idle

/-- The region is held back in ACTIVE: its held mark or tenure timer stands and its forced mark does not (R62). -/
def State.heldBack (s : State) (r : Region) : Bool :=
  !(s.serving r).forced && ((s.entry r).held || (s.entry r).tenure.isRunning)

/-- The serving condition of R62 in ACTIVE, and of R63 in LEAVING before the LEAVE frame is queued. -/
def State.servable (s : State) (r : Region) : Bool :=
  (s.entry r).role == .owner && !(s.claimants r).isEmpty && !s.handoverPending r && !s.releasePending r &&
    match s.ctl.mode with
    | .active => !s.heldBack r
    | .leaving => !s.ctl.leaveQueued
    | .reset | .config | .listen | .joining | .offline | .isolated => false

/-- The region is served where its condition holds: the handover state becomes QUEUED and a HANDOVER is handed over (R62, R63). -/
def State.serve (r : Region) (s : State) : State :=
  if s.servable r then (s.setServing r { s.serving r with handover := .queued }).hand (.handover r) else s

/-- A request to release a region, taken where its role is OWNER and nothing of it is pending (R71). -/
def State.requestRelease (r : Region) (s : State) : State :=
  if (s.entry r).role = .owner ∧ s.releasePending r = false ∧ s.handoverPending r = false ∧ s.ctl.leaveQueued = false then
    (s.setEntry r { s.entry r with release := .queued }).hand (.release r)
  else s

/-- In LEAVING, an OWNER region without claimants is requested released (R117, R118). -/
def State.releaseIfLeaving (r : Region) (s : State) : State :=
  if s.ctl.mode = .leaving ∧ (s.claimants r).isEmpty then s.requestRelease r else s

/-- A region that may have become servable goes on: it is served (R62, R63), or in LEAVING requested released (R118). -/
def State.goOn (r : Region) (s : State) : State := (s.serve r).releaseIfLeaving r

/-! ### Leaving (spec/06 section 6.6) -/

/-- The frame is leaving work: a HANDOVER, a RELEASE, or a WITHDRAW of a LEAVE failure (R118). -/
def QFrame.leavingWork : QFrame → Bool
  | .handover _ | .release _ => true
  | .withdraw _ l => l
  | .join | .leave | .claim _ | .wait _ _ _ | .refuse _ _ _ _ | .take _ | .repair _ => false

/-- The leaving work is done (R118). DEDUCED (log 35): a HANDOVER or RELEASE that fell because its region was yielded still counts
while it stands in the control queue, until the scheduler takes it. -/
def State.leavingDone (s : State) : Bool :=
  s.dir.toList.all (fun e => !e.role.owns) && s.line.queue.all (fun e => !e.frame.leavingWork) &&
    s.line.marks.all (fun m => !m.frame.leavingWork)

/-- The control queue or the marks hold this frame of a region that still stands. -/
def State.waiting (s : State) (q : QFrame) : Bool :=
  s.line.queue.any (fun e => e.frame == q && !e.fallen) || s.line.marks.any (fun m => m.frame == q)

/-- The LEAVE frame is queued (R119): the queue and the marks are emptied of all else, the handover and release states of the
frames removed return to NONE, closing records are freed, publication and the presence timer stop, and no addition is made until the
station is next ACTIVE (R37). -/
def State.queueLeave (s : State) : State :=
  { s with
    dir := Vector.ofFn fun r =>
      let e := s.entry r
      if e.release = .queued ∧ s.waiting (.release r) then { e with release := .idle } else e
    claims := { s.claims with
      serve := Vector.ofFn fun r =>
        let e := s.serving r
        if e.handover = .queued ∧ s.waiting (.handover r) then { e with handover := .idle } else e
      records := Vector.ofFn fun r => s.liveRecord r }
    pub := { s.emptyPublish.pub with barred := true }
    ctl := { s.ctl with leave := .stopped, presence := .stopped, presenceDue := false, leaveQueued := true }
    line := { s.line with queue := [{ frame := .leave, fallen := false }], marks := [] } }

/-- The LEAVE frame is queued as soon as the leaving work is done (R119). -/
def State.leaveIfDone (s : State) : State :=
  if s.ctl.mode = .leaving ∧ s.ctl.leaveQueued = false ∧ s.leavingDone then s.queueLeave else s

/-! ### Going down (spec/06 section 6.7) -/

/-- A region owned at the entry to ISOLATED or OFFLINE becomes an orphan with its REGION_LOST notice (R123, step 2). -/
def State.giveUp (d : LostDetail) (r : Region) (s : State) : State :=
  if (s.entry r).role.owns then
    (s.setEntry r { (s.entry r).orphaned with release := .idle }).notify (.regionLost r none d)
  else s

/-- What the entry to ISOLATED or OFFLINE clears in the same act (R38, R69, R104, R123, R175). The bar on additions stands (R37). -/
def State.shutDown (s : State) : State :=
  { s with
    dir := s.dir.map fun e => { e with release := .idle }
    pub := s.emptyPublish.pub
    claims := ClaimEngine.reset
    roster := s.roster.map fun e => { e with silence := .stopped }
    ctl := { s.ctl with listen := .stopped, leave := .stopped, presence := .stopped, presenceDue := false, backlog := [],
                        leaveQueued := false }
    line := { s.line with queue := [], marks := [], flight := none, controlRun := 0 } }

/-- The station enters ISOLATED or OFFLINE, with the notices in the order of R123. -/
def State.goDown (m : Mode) (c : Cause) (d : LostDetail) (s : State) : State :=
  let s := s.transition m c
  let s := s.forRegions (State.giveUp d)
  let s := s.forRegions fun r s => s.failRecord r .isolated
  s.shutDown

/-- Entry to ISOLATED (R121, R122). -/
def State.isolate (c : Cause) (s : State) : State := s.goDown .isolated c .isolated

/-- Entry to OFFLINE at the end of leaving (R120). -/
def State.goOffline (s : State) : State := s.goDown .offline .left .left

/-- An ID clash is reported to the Station Controller (R103, R121). -/
def State.clash (s : State) : State :=
  match s.ctl.mode with
  | .listen | .joining => s.goDown .offline .clash .clash
  | .active | .leaving => s.isolate .clash
  | .reset | .config | .offline | .isolated => s

/-! ### Ownership conflicts (spec/04 section 4.4) -/

/-- Each of several claimants draws a REFUSE for the region (R66, R73, R89). DESIGN CHOICE (log 34): in the order of the region's
queue, which decides the ones suppressed where the control queue fills. -/
def State.refuseAll (r : Region) (reason : RefuseReason) (believed : Option Station) (ps : List Station) (s : State) : State :=
  ps.foldl (fun s p => s.answer (.refuse r p reason believed)) s

/-- A frame of the region's pending HANDOVER or RELEASE. -/
def QFrame.ofServing (r : Region) : QFrame → Bool
  | .handover x | .release x => x == r
  | .join | .leave | .claim _ | .wait _ _ _ | .refuse _ _ _ _ | .withdraw _ _ | .take _ | .repair _ => false

/-- The station keeps the region (R87). -/
def State.winConflict (r : Region) (rival : Station) (s : State) : State := (s.addFull r).notify (.conflict r rival true)

/-- The station yields the region; `seq` is the evidence frame's sequence unless it was a PRESENCE (R88, R89). -/
def State.yieldRegion (r : Region) (rival : Station) (seq : Option Half) (s : State) : State :=
  let e := s.entry r
  let queue := s.claimants r
  let s := s.setEntry r { e with owner := some rival, role := .peer, replica := .stale, staleAge := 0,
                                 lastSeq := seq.getD e.lastSeq, held := false, tenure := .stopped, release := .idle }
  let s := s.setServing r { s.serving r with handover := .idle, forced := false }
  let s := s.unpublish r
  let s := (s.fell (QFrame.ofServing r)).clearMarks fun m => m == .handover r || m == .release r
  let s := (s.clearTable r).refuseAll r .notOwner (some rival) queue
  (s.notify (.conflict r rival false)).notify (.regionStale r (some rival) .conflict)

/-- The conflict rule against a rival (R87). -/
def State.meetRival (r : Region) (rival : Station) (seq : Option Half) (s : State) : State :=
  if s.ctl.ownId < rival then s.winConflict r rival else s.yieldRegion r rival seq

/-! ### Losing a peer (spec/05 section 5.6) -/

/-- A region whose directory owner is the peer becomes an orphan, and a NORMAL record for it an ORPHAN claim (R74, R75, R86). -/
def State.loseOwner (p : Station) (r : Region) (s : State) : State :=
  if (s.entry r).owner = some p then (s.setEntry r (s.entry r).orphaned).toOrphanClaim r else s

/-- An ORPHAN record deferred to the lost peer asks again (R75). -/
def State.releaseDeferred (p : Station) (r : Region) (s : State) : State :=
  match s.liveRecord r with
  | some c =>
    if c.kind = .orphan ∧ c.state = .deferred ∧ c.deferredTo = some p then
      (s.setRecord r (some { c with state := .asking, orphanWait := .stopped, deferredTo := none, attempts := 0 })).needClaim r
    else s
  | none => s

/-- The loss report of a peer (R101): the directory orphans its regions and their claims are converted, its table entries are
removed, and records deferred to it ask again. -/
def State.reportLoss (p : Station) (s : State) : State :=
  let s := s.forRegions (State.loseOwner p)
  let s := s.removeEverywhere p
  s.forRegions (State.releaseDeferred p)

/-! ### Reset -/

/-- The values that RESTART gives every block, with the own ID sampled afresh (R109): the configuration, the tick count and the
mailbox are kept, and the bar on additions stands until the station is next ACTIVE (R37). -/
def State.restart (straps : Station) (s : State) : State :=
  { State.reset with
    port := s.port
    pub := { Publication.reset with barred := s.pub.barred }
    ctl := { Controller.reset with cause := .restart, ownId := straps, config := s.ctl.config, ticks := s.ctl.ticks }
    cmd := { CommandUnit.reset with argument := s.cmd.argument, command := s.cmd.command, result := .done }
    pending := s.pending }

end Sys2Proof.Machine
end

