-- ==== Sys2Proof/Machine/Frames.lean ====
section
/-! DEFINITION. Frames on the line (spec/10 section 10.1): what a capture puts into a frame (R163), the bytes of a frame and its
check (R172), and which command a burst spells (R171, R173, R176, R177). -/

namespace Sys2Proof.Machine

/-! ### Codes -/

/-- The kind code (spec/10 section 10.1.2). -/
def FrameKind.code : FrameKind → BitVec 4
  | .presence => 1
  | .join => 2
  | .leave => 3
  | .claim => 4
  | .wait => 5
  | .refuse => 6
  | .withdraw => 7
  | .handover => 8
  | .take => 9
  | .release => 10
  | .update => 11
  | .repair => 12

/-- The kind of a payload. -/
def Payload.kind : Payload → FrameKind
  | .presence _ _ _ => .presence
  | .join _ => .join
  | .leave => .leave
  | .claim => .claim
  | .wait _ _ => .wait
  | .refuse _ _ _ => .refuse
  | .withdraw => .withdraw
  | .handover _ _ _ _ => .handover
  | .take _ => .take
  | .release => .release
  | .update _ _ _ => .update
  | .repair => .repair

/-- The kind of a control-queue frame. -/
def QFrame.kind : QFrame → FrameKind
  | .join => .join
  | .leave => .leave
  | .claim _ => .claim
  | .wait _ _ _ => .wait
  | .refuse _ _ _ _ => .refuse
  | .withdraw _ _ => .withdraw
  | .handover _ => .handover
  | .take _ => .take
  | .release _ => .release
  | .repair _ => .repair

/-- The region of a control-queue frame; JOIN and LEAVE carry none. -/
def QFrame.region : QFrame → Option Region
  | .join | .leave => none
  | .claim r | .wait r _ _ | .refuse r _ _ _ | .withdraw r _ | .handover r | .take r | .release r | .repair r => some r

/-- The kind of the frame in flight. -/
def Job.kind : Job → FrameKind
  | .presence => .presence
  | .update _ => .update
  | .control q => q.kind

/-- The region of the frame in flight, absent for PRESENCE, JOIN and LEAVE (R162). -/
def Job.region : Job → Option Region
  | .presence => none
  | .update r => some r
  | .control q => q.region

/-! ### Capture (R163) -/

/-- The header that the station sends: region 0xFF where the kind carries none (spec/10 section 10.1.1). -/
def State.header (s : State) (r : Option Region) (seq : Half) : Header :=
  { major := Config.majorRevision
    source := BitVec.ofNat 8 s.ctl.ownId.val
    region := match r with
      | some r => regionByte r
      | none => 0xFF
    seq := seq }

/-- The profile of the frozen block (R114, R115). -/
def State.profile (s : State) : Profile :=
  { minor := Config.minorRevision, presence := pick s.ctl.config.params 0, refresh := pick s.ctl.config.params 6
    homeCount := BitVec.ofNat 8 s.ctl.config.homeRegions.length }

/-- The owned list: every region whose role is OWNER or HANDING (R115). -/
def State.ownedList (s : State) : BitVec 128 :=
  allRegions.foldl (fun b r => if (s.entry r).role.owns then b ||| BitVec.twoPow 128 r.val else b) 0

/-- The station state byte of a PRESENCE (spec/10 section 10.1.2). -/
def Mode.announcedByte (m : Mode) : Byte := if m = .leaving then 2 else 1

/-- The sequence that an owner's next content frame of a region takes: last + 1 (R27, R64, R72, R81). -/
def State.nextSeq (s : State) (r : Region) : Half := (s.entry r).lastSeq + 1

/-- A PRESENCE captured at the start of an attempt (R115). -/
def State.presenceFrame (s : State) : Frame :=
  { header := s.header none 0, payload := .presence s.profile s.ctl.mode.announcedByte s.ownedList }

/-- An UPDATE captured from a publish entry (R27). -/
def State.updateFrame (s : State) (r : Region) (e : PubEntry) : Frame :=
  let whole := e.full || (e.low == 0 && e.high == 127)
  let low := if whole then 0 else e.low.val
  let len := if whole then 128 else e.high.val - e.low.val + 1
  { header := s.header (some r) (s.nextSeq r)
    payload := .update (BitVec.ofNat 8 low) (BitVec.ofNat 8 len)
      ((List.range len).map fun i => imageRead s.image (byteAddress r (low + i))) }

/-- A HANDOVER toward the head claimant, with the claimants at positions 2 to 4 (R64). -/
def State.handoverFrame (s : State) (r : Region) (target : Station) (others : List Station) : Frame :=
  let id (i : Nat) : Byte := stationByte (others[i]?)
  { header := s.header (some r) (s.nextSeq r)
    payload := .handover (stationByte (some target)) (BitVec.ofNat 8 others.length) #v[id 0, id 1, id 2]
      (regionContent s.image r) }

/-- A TAKE with this station's replica (R81). -/
def State.takeFrame (s : State) (r : Region) : Frame :=
  { header := s.header (some r) (s.nextSeq r), payload := .take (regionContent s.image r) }

/-- A RELEASE (R72). -/
def State.releaseFrame (s : State) (r : Region) : Frame := { header := s.header (some r) (s.nextSeq r), payload := .release }

/-- A frame that carries nothing of the image: JOIN, LEAVE, CLAIM, WAIT, REFUSE, WITHDRAW, REPAIR, sequence 0. -/
def State.plainFrame (s : State) (q : QFrame) (p : Payload) : Frame := { header := s.header q.region 0, payload := p }

/-! ### Bytes and the frame check -/

/-- High byte of a 16-bit field. -/
def highByte (h : Half) : Byte := h.extractLsb' 8 8

/-- Low byte of a 16-bit field. -/
def lowByte (h : Half) : Byte := h.extractLsb' 0 8

/-- The bits of bytes in line order: each byte least significant bit first (R172). -/
def lineBits (bs : List Byte) : List Bool := bs.flatMap fun b => (List.range 8).map b.getLsbD

/-- One bit into the check register (R172). -/
def crcBit (reg : Half) (b : Bool) : Half :=
  let shifted := reg <<< 1
  if (reg.getLsbD 15) != b then shifted ^^^ 0x8005 else shifted

/-- The check of a header and payload (R172). -/
def frameCheck (bs : List Byte) : Half := (lineBits bs).foldl crcBit 0xFFFF

/-- The 16 bytes of an owned list: byte j holds regions 8j to 8j + 7 (spec/10 section 10.1.2). -/
def ownedBytes (owned : BitVec 128) : List Byte := (List.range 16).map fun j => owned.extractLsb' (8 * j) 8

/-- The four profile bytes. -/
def profileBytes (p : Profile) : List Byte := [p.minor, p.presence, p.refresh, p.homeCount]

/-- The payload bytes (spec/10 section 10.1.2). -/
def Payload.bytes : Payload → List Byte
  | .presence p st owned => profileBytes p ++ [st] ++ ownedBytes owned
  | .join p => profileBytes p
  | .leave | .claim | .withdraw | .release | .repair => []
  | .wait c q => [c, q]
  | .refuse c w b => [c, w, b]
  | .handover n k ids content => [n, k] ++ ids.toList ++ content.toList
  | .take content => content.toList
  | .update o l data => [o, l] ++ data

/-- The header bytes of a frame with a kind code (spec/10 section 10.1.1). -/
def headerBytes (code : BitVec 4) (h : Header) : List Byte :=
  [code ++ h.major, h.source, h.region, highByte h.seq, lowByte h.seq]

/-- A frame's bytes from its header to its check. -/
def Frame.bytes (f : Frame) : List Byte :=
  let body := headerBytes f.payload.kind.code f.header ++ f.payload.bytes
  body ++ [highByte (frameCheck body), lowByte (frameCheck body)]

/-- The start pattern (spec/10 section 10.1.1). -/
def startPattern : List Byte := [0xD5, 0x3C]

/-- What an attempt sends: the start pattern and the frame (R161). -/
def Frame.burst (f : Frame) : List Byte := startPattern ++ f.bytes

/-! ### Examination of a burst -/

/-- A list of n bytes as a vector of n. -/
def takeBytes (n : Nat) (bs : List Byte) : Vector Byte n := Vector.ofFn fun i => bs.getD i.val 0

/-- The owned list of 16 bytes. -/
def ownedOf (bs : List Byte) : BitVec 128 :=
  (List.range 16).foldl (fun b j => b ||| ((bs.getD j 0).setWidth 128 <<< (8 * j))) 0

/-- The profile of four payload bytes. -/
def profileOf (bs : List Byte) : Profile :=
  { minor := bs.getD 0 0, presence := bs.getD 1 0, refresh := bs.getD 2 0, homeCount := bs.getD 3 0 }

/-- The frame length that section 10.1.2 of spec/10 gives a kind code of this revision; `len` is an UPDATE's length byte (R176). -/
def kindLength (code : BitVec 4) (len : Byte) : Option Nat :=
  match code.toNat with
  | 1 => some 28
  | 2 => some 11
  | 3 => some 7
  | 4 => some 7
  | 5 => some 9
  | 6 => some 10
  | 7 => some 7
  | 8 => some 140
  | 9 => some 135
  | 10 => some 7
  | 11 => some (9 + len.toNat)
  | 12 => some 7
  | _ => none

/-- The length test of R176. -/
def lengthAgrees (major code : BitVec 4) (len : Byte) (n : Nat) : Bool :=
  7 ≤ n && n ≤ 152 &&
    (major != Config.majorRevision ||
      match kindLength code len with
      | some k => n == k
      | none => true)

/-- The command of a good frame of a kind code, header and payload, from a station other than this one (R173, R176). -/
def kindCommand (code : BitVec 4) (h : Header) (p : List Byte) : Instr :=
  match code.toNat with
  | 1 => .presenceReceived h (profileOf p) (p.getD 4 0) (ownedOf (p.drop 5))
  | 2 => .joinReceived h (profileOf p)
  | 3 => .leaveReceived h
  | 4 => .claimReceived h
  | 5 => .waitReceived h (p.getD 0 0) (p.getD 1 0)
  | 6 => .refuseReceived h (p.getD 0 0) (p.getD 1 0) (p.getD 2 0)
  | 7 => .withdrawReceived h
  | 8 => .handoverReceived h (p.getD 0 0) (p.getD 1 0) (takeBytes 3 (p.drop 2)) (takeBytes 128 (p.drop 5))
  | 9 => .takeReceived h (takeBytes 128 p)
  | 10 => .releaseReceived h
  | 11 => .updateReceived h (p.getD 0 0) (p.getD 1 0) (p.drop 2)
  | 12 => .repairReceived h
  | _ => .unknownKindFrame code h

/-- The command that a burst spells at a station: its start pattern, length and check are tested (R171), and a good frame is
classified by its source (R173, R177). -/
def burstCommand (ownId : Station) (burst : List Byte) : Instr :=
  if burst.take 2 = startPattern then
    let bs := burst.drop 2
    let b0 := bs.getD 0 0
    let code : BitVec 4 := b0.extractLsb' 4 4
    let h : Header :=
      { major := b0.extractLsb' 0 4, source := bs.getD 1 0, region := bs.getD 2 0, seq := bs.getD 3 0 ++ bs.getD 4 0 }
    let body := bs.take (bs.length - 2)
    let check : Half := bs.getD (bs.length - 2) 0 ++ bs.getD (bs.length - 1) 0
    if lengthAgrees h.major code (bs.getD 6 0) bs.length && frameCheck body == check then
      match stationOf h.source with
      | some p => if p = ownId then .idClashFrame else kindCommand code h (body.drop 5)
      | none => .noSourceFrame h.source
    else .badBurst
  else .badBurst

/-- The bytes of a burst's bits, where it does not end inside a byte (R172, R176). -/
def burstBytes (bits : List Bool) : Option (List Byte) :=
  if bits.length % 8 = 0 then
    some ((List.range (bits.length / 8)).map fun j =>
      (List.range 8).foldl (fun b i => if bits.getD (8 * j + i) false then b ||| BitVec.twoPow 8 i else b) (0 : Byte))
  else none

/-- The command that a burst of bits spells: one that ends inside a byte is bad (R176). -/
def bitsCommand (ownId : Station) (bits : List Bool) : Instr :=
  match burstBytes bits with
  | some bs => burstCommand ownId bs
  | none => .badBurst

/-- The command with which another station hears a frame. -/
def Frame.heard (f : Frame) : Instr :=
  match f.payload with
  | .presence p st owned => .presenceReceived f.header p st owned
  | .join p => .joinReceived f.header p
  | .leave => .leaveReceived f.header
  | .claim => .claimReceived f.header
  | .wait c q => .waitReceived f.header c q
  | .refuse c w b => .refuseReceived f.header c w b
  | .withdraw => .withdrawReceived f.header
  | .handover n k ids content => .handoverReceived f.header n k ids content
  | .take content => .takeReceived f.header content
  | .release => .releaseReceived f.header
  | .update o l data => .updateReceived f.header o l data
  | .repair => .repairReceived f.header

end Sys2Proof.Machine
end

