-- ==== Sys2Proof/Machine/ControlArea.lean ====
section
/-! DEFINITION. Host reads of the control area: the locations and their bytes (spec/10 sections 10.2 and 10.3), and the answer of a
read (R140, R141, R105, R152, R158, R179). The command table has no row for these reads, which change nothing but the answer. -/

namespace Sys2Proof.Machine

/-! ### Codes (spec/10 sections 10.2.2 and 10.3) -/

/-- The code of a station state. -/
def Mode.code : Mode → Byte
  | .reset => 0
  | .config => 1
  | .listen => 2
  | .joining => 3
  | .active => 4
  | .leaving => 5
  | .offline => 6
  | .isolated => 7

/-- The code of a cause. -/
def Cause.code : Cause → Byte
  | .power => 1
  | .restart => 2
  | .command => 3
  | .listened => 4
  | .joined => 5
  | .line => 6
  | .clash => 7
  | .left => 8

/-- The code of a result. -/
def Result.code : Result → Byte
  | .none => 0x00
  | .done => 0x01
  | .invalid _ => 0x02
  | .busy => 0x03
  | .unknown => 0x04
  | .state => 0x05
  | .range => 0x06
  | .already => 0x07
  | .noRecord => 0x08
  | .noClaim => 0x09
  | .notOwner => 0x0A

/-- The item number of a result: 0 with every result except INVALID. -/
def Result.item : Result → Byte
  | .invalid n => BitVec.ofNat 8 n
  | .none | .done | .busy | .unknown | .state | .range | .already | .noRecord | .noClaim | .notOwner => 0

/-- The code of an origin. -/
def Origin.code : Origin → Byte
  | .home => 1
  | .command => 2
  | .write => 3

/-- The code of a reason of failure. -/
def FailReason.code : FailReason → Byte
  | .noAnswer => 1
  | .patience => 2
  | .refused => 3
  | .withdrawn => 4
  | .isolated => 5
  | .leave => 6

/-- The detail of a REGION_LOST. -/
def LostDetail.code : LostDetail → Byte
  | .handover => 1
  | .release => 2
  | .isolated => 3
  | .left => 4
  | .clash => 5

/-- The detail of a REGION_STALE. -/
def StaleDetail.code : StaleDetail → Byte
  | .gap => 1
  | .ownerChange => 2
  | .reconcile => 3
  | .conflict => 4

/-- The detail of a PEER_PROFILE_MISMATCH. -/
def ProfileField.code : ProfileField → Byte
  | .revision => 1
  | .presencePeriod => 2
  | .refreshPeriod => 3
  | .homeCount => 4

/-- The role byte of the directory view (spec/10 section 10.2.4). -/
def Role.code : Role → Byte
  | .orphan => 0
  | .peer => 1
  | .owner => 2
  | .handing => 3

/-- The state byte of the roster view (spec/10 section 10.2.5). -/
def PeerState.code : PeerState → Byte
  | .absent => 0
  | .present => 1
  | .incompatible => 2

/-! ### Fields -/

/-- A two-byte field, its low byte at the lower address (spec/10, opening). -/
def halfBytes (h : Half) : List Byte := [lowByte h, highByte h]

/-- A count as a two-byte field. -/
def countBytes (n : Nat) : List Byte := halfBytes (BitVec.ofNat 16 n)

/-- A bit as a byte's bit 0. -/
def bit (b : Bool) : Byte := if b then 1 else 0

/-- Kind, region, peer and details of a notice (spec/10 section 10.3). -/
def Notice.bytes : Notice → List Byte
  | .grantedHandover r p o => [0x01, regionByte r, stationByte (some p), 0x01, o.code, 0]
  | .grantedTake r o stale => [0x01, regionByte r, 0, 0x02, o.code, bit stale]
  | .claimFailed r p why o => [0x02, regionByte r, stationByte p, why.code, o.code, 0]
  | .unsoughtHandover r p => [0x03, regionByte r, stationByte (some p), 0x01, 0, 0]
  | .unsoughtTake r => [0x03, regionByte r, 0, 0x02, 0, 0]
  | .writesLost r why n => [0x04, regionByte r, 0, why.code, BitVec.ofNat 8 n, 0]
  | .regionLost r p d => [0x05, regionByte r, stationByte p, d.code, 0, 0]
  | .regionStale r p d => [0x06, regionByte r, stationByte p, d.code, 0, 0]
  | .conflict r p won => [0x07, regionByte r, stationByte (some p), if won then 1 else 2, 0, 0]
  | .peerJoined p byJoin => [0x08, 0xFF, stationByte (some p), if byJoin then 2 else 1, 0, 0]
  | .peerGone p byLeave => [0x09, 0xFF, stationByte (some p), if byLeave then 2 else 1, 0, 0]
  | .profileMismatch p f => [0x0A, 0xFF, stationByte (some p), f.code, 0, 0]
  | .peerIncompatible p m => [0x0B, 0xFF, stationByte (some p), m.setWidth 8, 0, 0]
  | .state m c => [0x0C, 0xFF, 0, m.code, c.code, 0]
  | .frameDropped k r =>
    [0x0D, match r with
      | some r => regionByte r
      | none => 0xFF, 0, k.code.setWidth 8, 0, 0]

/-- The 12 bytes of a notice record (spec/10 section 10.3). -/
def NoticeRecord.bytes (n : NoticeRecord) : List Byte := n.notice.bytes ++ halfBytes n.stamp ++ halfBytes n.number ++ [0, 0]

/-- The notice head: the oldest record, and 0 in every byte where there is none (R152). -/
def CommandUnit.headBytes (c : CommandUnit) : List Byte :=
  match c.notices with
  | n :: _ => n.bytes
  | [] => List.replicate 12 0

/-- The status location (R141). -/
def State.statusBytes (s : State) : List Byte :=
  [s.ctl.mode.code, s.ctl.cause.code, BitVec.ofNat 8 s.ctl.ownId.val, BitVec.ofNat 8 s.parked.length,
   BitVec.ofNat 8 s.cmd.notices.length, 0, 0, 0]

/-- The mailbox; busy reads yes in RESET (R142, R143). -/
def State.mailboxBytes (s : State) : List Byte :=
  [s.cmd.argument, s.cmd.command, s.cmd.result.code, s.cmd.result.item, bit (s.ctl.mode == .reset), 0, 0, 0]

/-- The line statistics 0x8044 to 0x804D (R174). -/
def LineUnit.statisticsBytes (l : LineUnit) : List Byte :=
  countBytes l.received ++ countBytes l.checkErrors ++ countBytes l.collisions ++ countBytes l.drops ++ countBytes l.suppressed

/-- The third byte of a directory view entry. -/
def DirEntry.markByte (e : DirEntry) : Byte :=
  bit (e.replica == .stale) ||| (bit e.held <<< 1) ||| (bit e.tenure.isRunning <<< 2) ||| (bit e.repair <<< 3)

/-- A directory view entry (R158, spec/10 section 10.2.4). -/
def DirEntry.viewBytes (e : DirEntry) : List Byte :=
  [stationByte e.owner, e.role.code, e.markByte, 0] ++ halfBytes e.lastSeq ++ countBytes e.staleAge

/-- A roster view entry (R105, spec/10 section 10.2.5). -/
def RosterEntry.viewBytes (e : RosterEntry) : List Byte :=
  [e.state.code, e.major ++ e.minor, e.presence, e.refresh, BitVec.ofNat 8 e.homeCount,
   bit (e.announced == .leaving) ||| (bit e.mismatch <<< 1)] ++ countBytes e.heard

/-! ### The map (spec/10 section 10.2.1) -/

/-- The bytes at and above an address, as the location that holds it has them: `none` where no location holds it. -/
def State.locationBytes (s : State) (a : Nat) : Option (List Byte) :=
  if 0x8000 ≤ a ∧ a < 0x8008 then some (s.statusBytes.drop (a - 0x8000))
  else if 0x8010 ≤ a ∧ a < 0x8018 then some (s.mailboxBytes.drop (a - 0x8010))
  else if 0x8020 ≤ a ∧ a < 0x802C then some (s.cmd.headBytes.drop (a - 0x8020))
  else if 0x802C ≤ a ∧ a < 0x8030 then some [0]
  else if 0x8030 ≤ a ∧ a < 0x8034 then some ([s.cmd.flags.setWidth 8, 0, 0, 0].drop (a - 0x8030))
  else if 0x8034 ≤ a ∧ a < 0x8038 then some ([s.cmd.mask.setWidth 8, 0, 0, 0].drop (a - 0x8034))
  else if 0x8040 ≤ a ∧ a < 0x8042 then some ((countBytes s.cmd.overflow).drop (a - 0x8040))
  else if 0x8044 ≤ a ∧ a < 0x804E then some (s.line.statisticsBytes.drop (a - 0x8044))
  else if 0x8100 ≤ a ∧ a < 0x8108 then some (s.ctl.config.params.toList.drop (a - 0x8100))
  else if 0x8110 ≤ a ∧ a < 0x8120 then some (s.ctl.config.homeSet.toList.drop (a - 0x8110))
  else if 0x8140 ≤ a ∧ a < 0x8160 then some (s.ctl.config.windows.toList.drop (a - 0x8140))
  else if h : 0x8400 ≤ a ∧ a < 0x8800 then
    some ((s.entry ⟨(a - 0x8400) / 8, by omega⟩).viewBytes.drop ((a - 0x8400) % 8))
  else if h : 0x8800 ≤ a ∧ a < 0x8900 then
    some ((s.peer ⟨(a - 0x8800) / 8, by omega⟩).viewBytes.drop ((a - 0x8800) % 8))
  else none

/-- The byte at a host address of the control area, if a location occupies it. -/
def State.controlByte (s : State) (a : Nat) : Option Byte := (s.locationBytes a).map fun bs => bs.headD 0

/-- The address is read in RESET too: status and mailbox (R140). -/
def readInReset (a : Nat) : Bool := (0x8000 ≤ a && a < 0x8008) || (0x8010 ≤ a && a < 0x8018)

/-- A byte of the control area is read OK in the present state (R140). -/
def State.readable (s : State) (a : Nat) : Bool := (s.controlByte a).isSome && (s.ctl.mode != .reset || readInReset a)

/-- The answer of a host read of the control area: OK where the access is well formed and every byte of its group is read OK, and
then the bytes as they stand (R140, R179). -/
def State.controlRead (s : State) (word : BitVec 13) (lanes : BitVec 4) : Answer :=
  let a := 0x8000 + 4 * word.toNat
  match laneGroup lanes with
  | some (first, len) =>
    if (List.range len).all fun i => s.readable (a + first + i) then
      { ok := true, data := gatherLanes first len fun k => (s.controlByte (a + k)).getD 0 }
    else { ok := false, data := 0 }
  | none => { ok := false, data := 0 }

end Sys2Proof.Machine
end

