-- ==== Sys2Proof/Machine/Commands.lean ====
section
/-! DEFINITION. The command mailbox (spec/08 section 8.2) and the nine commands. -/

namespace Sys2Proof.Machine

/-! ### Taking a command -/

/-- The argument, where the access covers it, and the code are stored (R142, R179). -/
def State.storeCommand (code : Byte) (arg : Option Byte) (s : State) : State :=
  { s with cmd := { s.cmd with command := code, argument := arg.getD s.cmd.argument } }

/-- A write to the command location: BUSY in RESET, and else COMMAND_DONE is latched and the command taken; the write is answered
OK (R142, R143). -/
def State.command (code : Byte) (arg : Option Byte) (take : State → State) (s : State) : State :=
  let s := s.storeCommand code arg
  if s.ctl.mode = .reset then (s.setResult .busy).respond true 0 else (take s.latchDone).respond true 0

/-- A command taken in ACTIVE on the region that the argument gives: the state test, then the range test (R142). -/
def State.regionCommand (act : Region → State → State) (s : State) : State :=
  if s.ctl.mode ≠ .active then s.setResult .state
  else
    match argumentRegion s.cmd.argument with
    | some r => act r s
    | none => s.setResult .range

/-- A command on an OWNER region: NOT_OWNER in every other role (R147, R148, R149). -/
def State.onOwned (act : Region → State → State) (r : Region) (s : State) : State :=
  if (s.entry r).role = .owner then (act r s).setResult .done else s.setResult .notOwner

/-! ### Station commands (R144) -/

/-- JOIN: the check of R112, and else LISTEN with the listen timer started (R113). -/
def State.join (s : State) : State :=
  if s.ctl.mode ≠ .config then s.setResult .state
  else
    match failingItems s.ctl.ownId s.ctl.config with
    | item :: _ => s.setResult (.invalid item)
    | [] =>
      let s := (s.setResult .done).transition .listen .command
      { s with ctl := { s.ctl with listen := Timer.start s.ctl.config.listenMs } }

/-- Entry to LEAVING as one act (R117); the LEAVE frame follows at once where nothing is left to do (R119). DESIGN CHOICE (log 34):
the HANDOVERs of all regions are handed over in ascending order, and then the RELEASEs in ascending order. -/
def State.enterLeaving (s : State) : State :=
  let s := s.transition .leaving .command
  let s := { s with ctl := { s.ctl with leave := Timer.start Config.leaveLimit, backlog := [] } }
  let s := s.forRegions fun r s => s.failRecord r .leave
  let s := s.forRegions State.serve
  let s := s.forRegions State.releaseIfLeaving
  s.leaveIfDone

/-- LEAVE. -/
def State.leaveCell (s : State) : State :=
  if s.ctl.mode = .active then s.enterLeaving.setResult .done else s.setResult .state

/-- RESTART: taken in CONFIG, OFFLINE and ISOLATED (R109). -/
def State.restartStation (straps : Station) (s : State) : State :=
  match s.ctl.mode with
  | .config | .offline | .isolated => s.restart straps
  | .reset | .listen | .joining | .active | .leaving => s.setResult .state

/-! ### Region commands -/

/-- CLAIM r (R145). -/
def State.claimRegion (r : Region) (s : State) : State :=
  if (s.entry r).role.owns ∨ (s.liveRecord r).isSome then s.setResult .already
  else if s.claimTaken r then (s.requestClaim r .command).setResult .done
  else s.setResult .noRecord

/-- WITHDRAW r (R146). -/
def State.withdrawClaim (r : Region) (s : State) : State :=
  if (s.liveRecord r).isSome then (s.failRecord r .withdrawn).setResult .done else s.setResult .noClaim

/-- RELEASE r at an OWNER region: held no, forced yes, and the region is served, or else released (R63, R71, R147). -/
def State.forceOut (r : Region) (s : State) : State :=
  let s := s.setEntry r { s.entry r with held := false }
  let s := s.setServing r { s.serving r with forced := true }
  if (s.claimants r).isEmpty then s.requestRelease r else s.serve r

/-- HOLD r at an OWNER region (R148). -/
def State.hold (r : Region) (s : State) : State := s.setEntry r { s.entry r with held := true }

/-- UNHOLD r at an OWNER region, which may serve the region (R62, R148). -/
def State.unhold (r : Region) (s : State) : State := (s.setEntry r { s.entry r with held := false }).serve r

/-! ### The meanings -/

/-- JOIN_COMMAND. -/
def execJoinCommand (arg : Option Byte) (s : State) : Host.Outcome State Fault Refusal := .next (s.command 0x01 arg State.join)

/-- LEAVE_COMMAND. -/
def execLeaveCommand (arg : Option Byte) (s : State) : Host.Outcome State Fault Refusal := .next (s.command 0x02 arg State.leaveCell)

/-- RESTART_COMMAND. -/
def execRestartCommand (arg : Option Byte) (straps : Station) (s : State) : Host.Outcome State Fault Refusal :=
  .next (s.command 0x03 arg (State.restartStation straps))

/-- CLAIM_COMMAND. -/
def execClaimCommand (arg : Option Byte) (s : State) : Host.Outcome State Fault Refusal :=
  .next (s.command 0x10 arg (State.regionCommand State.claimRegion))

/-- WITHDRAW_COMMAND. -/
def execWithdrawCommand (arg : Option Byte) (s : State) : Host.Outcome State Fault Refusal :=
  .next (s.command 0x11 arg (State.regionCommand State.withdrawClaim))

/-- RELEASE_COMMAND. -/
def execReleaseCommand (arg : Option Byte) (s : State) : Host.Outcome State Fault Refusal :=
  .next (s.command 0x12 arg (State.regionCommand (State.onOwned State.forceOut)))

/-- HOLD_COMMAND. -/
def execHoldCommand (arg : Option Byte) (s : State) : Host.Outcome State Fault Refusal :=
  .next (s.command 0x13 arg (State.regionCommand (State.onOwned State.hold)))

/-- UNHOLD_COMMAND. -/
def execUnholdCommand (arg : Option Byte) (s : State) : Host.Outcome State Fault Refusal :=
  .next (s.command 0x14 arg (State.regionCommand (State.onOwned State.unhold)))

/-- REFRESH_COMMAND. -/
def execRefreshCommand (arg : Option Byte) (s : State) : Host.Outcome State Fault Refusal :=
  .next (s.command 0x15 arg (State.regionCommand (State.onOwned State.addFull)))

/-- UNKNOWN_COMMAND (R142). -/
def execUnknownCommand (arg : Option Byte) (code : Byte) (s : State) : Host.Outcome State Fault Refusal :=
  if (Instr.unknownCommand arg code).wellFormed then .next (s.command code arg (State.setResult .unknown))
  else .refused .illFormed

end Sys2Proof.Machine
end

