-- ==== Sys2Proof/Machine/HostPort.lean ====
section
/-! DEFINITION. Host accesses to the window area (spec/07) and host writes of the control area but for the commands (spec/08). -/

namespace Sys2Proof.Machine

/-! ### Window area -/

/-- The answer of a host read of the window area: the tests of R128 in order. -/
def State.windowAnswer (s : State) (word : BitVec 13) (lanes : BitVec 4) : Answer :=
  if s.ctl.mode = .reset then { ok := false, data := 0 }
  else
    match laneGroup lanes, windowTarget s.ctl.config word with
    | some (first, len), some (w, r) =>
      if w.refuseStale ∧ (s.entry r).replica = .stale then { ok := false, data := 0 }
      else { ok := true, data := gatherLanes first len fun k => imageRead s.image (byteAddress r (wordOffset word + k)) }
    | _, _ => { ok := false, data := 0 }

/-- A write to an OWNER region is applied: image bytes and span addition in one act (R24, R130). -/
def State.applyWrite (r : Region) (word : BitVec 13) (lanes : BitVec 4) (data : HostWord) (s : State) : State :=
  let s := { s with image := writeLanes s.image r (wordOffset word) lanes data }
  s.addSpan r (toOffset (wordOffset word + lowLane lanes)) (toOffset (wordOffset word + highLane lanes))

/-- An entry appended to the parked write buffer (R131). -/
def State.park (r : Region) (word : BitVec 13) (first len : Nat) (lanes : BitVec 4) (data : HostWord) (s : State) : State :=
  { s with parked := s.parked ++
      [{ region := r, offset := toOffset (wordOffset word + first), length := len, data := data, lanes := lanes }] }

/-- A write through a claim-on-write window to a region that the station does not own: the tests of R132 in order. -/
def State.parkWrite (r : Region) (word : BitVec 13) (first len : Nat) (lanes : BitVec 4) (data : HostWord) (s : State) : State :=
  if Config.maxParked ≤ s.parked.length then s.respond false 0
  else if (s.liveRecord r).isSome then (s.park r word first len lanes data).respond true 0
  else if s.claimTaken r then ((s.requestClaim r .write).park r word first len lanes data).respond true 0
  else s.respond false 0

/-- A host write of the window area: the tests of R129 in order, then R130 or R132. -/
def State.windowWrite (word : BitVec 13) (lanes : BitVec 4) (data : HostWord) (s : State) : State :=
  if s.ctl.mode ≠ .active then s.respond false 0
  else
    match laneGroup lanes, windowTarget s.ctl.config word with
    | some (first, len), some (w, r) =>
      if w.writeProtect then s.respond false 0
      else
        match (s.entry r).role with
        | .handing => s.respond false 0
        | .owner =>
          if (s.entry r).release = .captured then s.respond false 0
          else (s.applyWrite r word lanes data).respond true 0
        | .peer | .orphan => if w.claimOnWrite then s.parkWrite r word first len lanes data else s.respond false 0
    | _, _ => s.respond false 0

/-! ### Control-area writes -/

/-- The configuration block with one byte of an address written, as written (R111). -/
def ConfigBlock.writeByte (c : ConfigBlock) (address : Nat) (b : Byte) : ConfigBlock :=
  if h : 0x8100 ≤ address ∧ address < 0x8108 then { c with params := put c.params ⟨address - 0x8100, by omega⟩ b }
  else if h : 0x8110 ≤ address ∧ address < 0x8120 then { c with homeSet := put c.homeSet ⟨address - 0x8110, by omega⟩ b }
  else if h : 0x8140 ≤ address ∧ address < 0x8160 then { c with windows := put c.windows ⟨address - 0x8140, by omega⟩ b }
  else c

/-- The enabled lanes of a word of the configuration area written (R111). -/
def ConfigBlock.writeLanes (c : ConfigBlock) (address : Nat) (lanes : BitVec 4) (data : HostWord) : ConfigBlock :=
  [0, 1, 2, 3].foldl (fun c k => if lanes.getLsbD k then c.writeByte (address + k) (laneByte data k) else c) c

/-- The host address of a control-area word. -/
def controlAddress (word : BitVec 13) : Nat := 0x8000 + 4 * word.toNat

/-- A host write of the configuration area: stored in CONFIG, ERROR in every other state (R111, R140). -/
def State.writeConfig (word : BitVec 13) (lanes : BitVec 4) (data : HostWord) (s : State) : State :=
  if s.ctl.mode = .config ∧ (laneGroup lanes).isSome then
    ({ s with ctl := { s.ctl with config := s.ctl.config.writeLanes (controlAddress word) lanes data } } : State).respond true 0
  else s.respond false 0

/-- A host write of a location that is written in every state but RESET (R140). -/
def State.writeOutsideReset (lanes : BitVec 4) (act : State → State) (s : State) : State :=
  if s.ctl.mode ≠ .reset ∧ (laneGroup lanes).isSome then (act s).respond true 0 else s.respond false 0

/-- The oldest notice removed (R152). -/
def State.popNotice (s : State) : State := { s with cmd := { s.cmd with notices := s.cmd.notices.tail } }

/-- The latched flags written as 1 cleared; bits 5 to 31 are discarded, and a byte that is not enabled clears nothing (R155, R179). -/
def State.writeFlags (lanes : BitVec 4) (data : HostWord) (s : State) : State :=
  if lanes.getLsbD 0 then { s with cmd := s.cmd.clearFlags (laneByte data 0) } else s

/-- The mask stored; bits 5 to 31 are discarded (R156, R179). -/
def State.writeMask (lanes : BitVec 4) (data : HostWord) (s : State) : State :=
  if lanes.getLsbD 0 then { s with cmd := { s.cmd with mask := data.setWidth 5 } } else s

/-- A host write of a control-area location with no row of its own: the argument is stored, in every state; every other location
refuses the write (R140, R142, R179). -/
def State.writeRegister (word : BitVec 13) (lanes : BitVec 4) (data : HostWord) (s : State) : State :=
  if word.toNat = 4 ∧ laneGroup lanes = some (0, 1) then
    ({ s with cmd := { s.cmd with argument := laneByte data 0 } } : State).respond true 0
  else s.respond false 0

/-! ### The meanings -/

/-- WINDOW_READ. -/
def execWindowRead (word : BitVec 13) (lanes : BitVec 4) (s : State) : Host.Outcome State Fault Refusal :=
  .next (s.respond (s.windowAnswer word lanes).ok (s.windowAnswer word lanes).data)

/-- WINDOW_WRITE. -/
def execWindowWrite (word : BitVec 13) (lanes : BitVec 4) (data : HostWord) (s : State) : Host.Outcome State Fault Refusal :=
  .next (s.windowWrite word lanes data)

/-- CONFIGURATION_WRITE. -/
def execConfigurationWrite (word : BitVec 13) (lanes : BitVec 4) (data : HostWord) (s : State) :
    Host.Outcome State Fault Refusal :=
  if (Instr.configurationWrite word lanes data).wellFormed then .next (s.writeConfig word lanes data) else .refused .illFormed

/-- NOTICE_POP: every written value is taken alike (R152, R179). -/
def execNoticePop (lanes : BitVec 4) (s : State) : Host.Outcome State Fault Refusal :=
  .next (s.writeOutsideReset lanes State.popNotice)

/-- FLAGS_WRITE. -/
def execFlagsWrite (lanes : BitVec 4) (data : HostWord) (s : State) : Host.Outcome State Fault Refusal :=
  .next (s.writeOutsideReset lanes (State.writeFlags lanes data))

/-- MASK_WRITE. -/
def execMaskWrite (lanes : BitVec 4) (data : HostWord) (s : State) : Host.Outcome State Fault Refusal :=
  .next (s.writeOutsideReset lanes (State.writeMask lanes data))

/-- REGISTER_WRITE. -/
def execRegisterWrite (word : BitVec 13) (lanes : BitVec 4) (data : HostWord) (s : State) : Host.Outcome State Fault Refusal :=
  if (Instr.registerWrite word lanes data).wellFormed then .next (s.writeRegister word lanes data) else .refused .illFormed

end Sys2Proof.Machine
end

