-- ==== Sys2Proof/Machine/LineEvents.lean ====
section
/-! DEFINITION. The line events: carrier and idle, the transmit scheduler, the deferral wait, and the outcomes of this station's
attempts (spec/09). -/

namespace Sys2Proof.Machine

/-! ### Flight -/

/-- An attempt of this station is under way (R161). -/
def State.transmitting (s : State) : Bool :=
  match s.line.flight with
  | some f => f.transmitting
  | none => false

/-- The rank of a deferral wait (R160). -/
def deferralRank (ownId : Station) (rotation : BitVec 5) (attempt : Nat) : Nat :=
  (ownId.val + 32 - rotation.toNat + 7 * (attempt - 1)) % 32

/-- The length in us of a deferral wait (R160): a base gap and 3 us a slot, an UPDATE 32 slots later. -/
def deferralWait (ownId : Station) (rotation : BitVec 5) (attempt : Nat) (job : Job) : Nat :=
  let k := deferralRank ownId rotation attempt
  4 + 3 * (match job with
    | .update _ => k + 32
    | .presence | .control _ => k)

/-- A deferral wait begins for the frame in flight, where there is one that is not being sent (R160). -/
def State.startWait (s : State) : State :=
  { s with line := { s.line with flight := s.line.flight.map fun f =>
      if f.transmitting then f
      else { f with wait := some (deferralWait s.ctl.ownId s.line.rotation f.attempt f.job) } } }

/-- The frame in flight leaves flight. -/
def State.endFlight (s : State) : State := { s with line := { s.line with flight := none } }

/-! ### Carrier -/

/-- The rotation counter after a burst (R159). -/
def nextRotation (rotation : BitVec 5) (b : Burst) : BitVec 5 :=
  match b with
  | .good source => source.setWidth 5 + 1
  | .unknown | .bad => rotation + 1

/-- Carrier appears on LRX, this station's own echo too: a burst begins, and a deferral wait in progress is abandoned (R159, R160). -/
def State.carrierAppears (s : State) : State :=
  if s.ctl.mode = .reset ∨ s.line.carrier then s
  else { s with line := { s.line with carrier := true, burst := .unknown,
                                      flight := s.line.flight.map fun f => { f with wait := none } } }

/-- The line becomes idle: the rotation counter follows the burst that ended, and a deferral wait begins (R159, R160). -/
def State.lineBecomesIdle (s : State) : State :=
  if s.ctl.mode = .reset ∨ (s.line.carrier = false ∧ s.line.burst = .unknown) then s
  else
    ({ s with line := { s.line with carrier := false, burst := .unknown,
                                    rotation := nextRotation s.line.rotation s.line.burst } } : State).startWait

/-! ### The transmit scheduler (spec/09 section 9.7) -/

/-- The region offered: the lowest in the set above the pointer, or else the lowest in the set (R26). -/
def State.offered (s : State) : Option Region :=
  match allRegions.find? fun r => s.pub.pointer < r && (s.pubEntry r).isSome with
  | some r => some r
  | none => allRegions.find? fun r => (s.pubEntry r).isSome

/-- The publish offer that stands: in ACTIVE and LEAVING only (R26, R169). -/
def State.publishOffer (s : State) : Option Region :=
  match s.ctl.mode with
  | .active | .leaving => s.offered
  | .reset | .config | .listen | .joining | .offline | .isolated => none

/-- The control run after a control-class frame is taken (R170). -/
def State.runAfterControl (s : State) : Nat :=
  if s.publishOffer.isSome then min Config.runLimit (s.line.controlRun + 1) else 0

/-- A frame as it enters flight. -/
def newFlight (job : Job) (frame : Option Frame) (fallen : Bool) : Flight :=
  { job := job, attempt := 1, frame := frame, fallen := fallen, wait := none, transmitting := false, staleAtTake := false }

/-- The scheduler takes the publish offer: the UPDATE is captured, the entry leaves the set and the pointer follows (R27). -/
def State.takeOffer (r : Region) (s : State) : State :=
  match s.pubEntry r with
  | some e =>
    let f := newFlight (.update r) (some (s.updateFrame r e)) false
    let s := s.setPub r none
    ({ s with pub := { s.pub with pointer := r }, line := { s.line with flight := some f, controlRun := 0 } } : State).startWait
  | none => s

/-- The scheduler takes the due PRESENCE (R115, R169). -/
def State.takePresence (s : State) : State :=
  ({ s with ctl := { s.ctl with presenceDue := false }
            line := { s.line with flight := some (newFlight .presence none false), controlRun := s.runAfterControl } }
    : State).startWait

/-- The oldest waiting mark's frame is appended and its mark cleared; the record of a WITHDRAW mark is freed (R54, R167). -/
def State.admitMark (s : State) : State :=
  match s.line.marks with
  | m :: ms =>
    let s := { s with line := { (s.line.append m.frame) with marks := ms } }
    match m with
    | .withdraw r _ => s.setRecord r none
    | .join | .claim _ | .take _ | .handover _ | .release _ => s
  | [] => s

/-- The scheduler takes the head of the control queue (R166, R167, R169). -/
def State.takeHead (e : QEntry) (rest : List QEntry) (s : State) : State :=
  let run := s.runAfterControl
  (({ s with line := { s.line with queue := rest, flight := some (newFlight (.control e.frame) none e.fallen),
                                   controlRun := run } } : State).admitMark).startWait

/-- The scheduler may take a frame: JOINING, ACTIVE or LEAVING, no frame in flight, the line idle (R169). -/
def State.mayTake (s : State) : Bool := s.ctl.mode.transmits && s.line.flight.isNone && !s.line.carrier

/-- The choice of R169, in the order of its table. -/
def State.schedule (s : State) : State :=
  if s.mayTake then
    match s.publishOffer, s.ctl.presenceDue, s.line.queue with
    | some r, due, queue =>
      if s.line.controlRun = Config.runLimit then s.takeOffer r
      else if due then s.takePresence
      else match queue with
        | e :: rest => s.takeHead e rest
        | [] => s.takeOffer r
    | none, true, _ => s.takePresence
    | none, false, e :: rest => s.takeHead e rest
    | none, false, [] => s
  else s

/-! ### Capture and the checks before an attempt (spec/09 section 9.4) -/

/-- The attempt starts: the station transmits the frame (R161), and no burst has been heard yet. Its own carrier on LRX is told by
CARRIER_START, or by the outcome (log 33). -/
def State.startAttempt (f : Flight) (frame : Frame) (s : State) : State :=
  { s with line := { s.line with burst := .unknown
                                 flight := some { f with frame := some frame, wait := none, transmitting := true } } }

/-- The handover state returns to NONE. -/
def State.handoverIdle (r : Region) (s : State) : State := s.setServing r { s.serving r with handover := .idle }

/-- The release state returns to NONE. -/
def State.releaseIdle (r : Region) (s : State) : State := s.setEntry r { s.entry r with release := .idle }

/-- A region in HANDING returns to OWNER and receives a full addition (R25, R65, R67). -/
def State.returnToOwner (r : Region) (s : State) : State :=
  if (s.entry r).role = .handing then (s.setEntry r { s.entry r with role := .owner }).addFull r else s

/-- The tests of a TAKE, at its capture and before each later attempt (R81). -/
def State.takeStands (s : State) (r : Region) : Bool :=
  (s.entry r).role == .orphan &&
    match s.liveRecord r with
    | some c => c.kind == .orphan && c.state == .taking
    | none => false

/-- The tests of a CLAIM at its capture (R43). -/
def State.claimStands (s : State) (r : Region) : Bool :=
  match s.liveRecord r with
  | some c => c.state == .asking
  | none => false

/-- The check of a CLAIM before each later attempt: its record has not ended (R43), and an ORPHAN record is in ASKING (R76).
DEDUCED (log 16): the CLAIM of a record that R78 converted in ASKING stands, where R76 says of a converted record's that it is not sent
again. The CLAIM of a record that deferred has fallen by then (R76, R77). -/
def State.claimStillStands (s : State) (r : Region) : Bool :=
  match s.liveRecord r with
  | some c => c.kind == .normal || c.state == .asking
  | none => false

/-- The capture of a HANDOVER toward its head claimant, as one act (R64). -/
def State.captureHandover (f : Flight) (r : Region) (target : Station) (others : List Station) (s : State) : State :=
  let frame := s.handoverFrame r target others
  let s := s.setEntry r { s.entry r with role := .handing }
  let s := s.setPub r none
  let s := s.setServing r { s.serving r with handover := .captured target (target :: others) }
  s.startAttempt f frame

/-- A HANDOVER at the start of its first attempt: the tests of R64 in order, then its capture. -/
def State.tryHandover (f : Flight) (r : Region) (s : State) : State :=
  if f.fallen then s.endFlight
  else if (s.entry r).role ≠ .owner then s.endFlight.handoverIdle r
  else
    match s.claimants r with
    | [] =>
      let t := s.endFlight.handoverIdle r
      let t := if (s.serving r).forced then (t.setServing r { t.serving r with forced := false }).requestRelease r else t
      t.releaseIfLeaving r
    | p :: rest =>
      if s.ctl.mode ≠ .leaving ∧ s.heldBack r then s.endFlight.handoverIdle r
      else if s.isPresent p = false then ((s.endFlight.removeClaimant r p).handoverIdle r).goOn r
      else s.captureHandover f r p (rest.take 3)

/-- A RELEASE at the start of its first attempt: the tests of R72 in order, then its capture. -/
def State.tryRelease (f : Flight) (r : Region) (s : State) : State :=
  if f.fallen then s.endFlight
  else if (s.entry r).role ≠ .owner then s.endFlight.releaseIdle r
  else if (s.claimants r).isEmpty = false then (s.endFlight.releaseIdle r).serve r
  else if (s.pubEntry r).isSome then s.endFlight.hand (.release r)
  else (s.setEntry r { s.entry r with release := .captured }).startAttempt f (s.releaseFrame r)

/-- A TAKE at its capture notes whether the replica is STALE (R81). -/
def State.noteTake (r : Region) (f : Flight) (s : State) : Flight := { f with staleAtTake := (s.entry r).replica == .stale }

/-- A control-queue frame at the start of its first attempt: the owning block's tests and its capture (R163). -/
def State.firstAttempt (f : Flight) (q : QFrame) (s : State) : State :=
  match q with
  | .join => s.startAttempt f (s.plainFrame q (.join s.profile))
  | .leave => s.startAttempt f (s.plainFrame q .leave)
  | .claim r => if f.fallen = false ∧ s.claimStands r then s.startAttempt f (s.plainFrame q .claim) else s.endFlight
  | .wait _ p pos => s.startAttempt f (s.plainFrame q (.wait (stationByte (some p)) (BitVec.ofNat 8 pos)))
  | .refuse _ p why b => s.startAttempt f (s.plainFrame q (.refuse (stationByte (some p)) (reasonByte why) (stationByte b)))
  | .withdraw r _ => if (s.entry r).role.owns then s.endFlight else s.startAttempt f (s.plainFrame q .withdraw)
  | .handover r => s.tryHandover f r
  | .take r => if s.takeStands r then s.startAttempt (s.noteTake r f) (s.takeFrame r) else s.endFlight
  | .release r => s.tryRelease f r
  | .repair r => if (s.entry r).repair then s.startAttempt f (s.plainFrame q .repair) else s.endFlight

/-- A captured HANDOVER is withdrawn because its target is no longer PRESENT (R65). -/
def State.withdrawHandover (r : Region) (target : Station) (s : State) : State :=
  (((s.endFlight.removeClaimant r target).returnToOwner r).handoverIdle r).goOn r

/-- The check before a later attempt of a captured HANDOVER (R65, R88). -/
def State.recheckHandover (f : Flight) (frame : Frame) (r : Region) (s : State) : State :=
  if f.fallen then s.endFlight
  else
    match (s.serving r).handover with
    | .captured target _ => if s.isPresent target then s.startAttempt f frame else s.withdrawHandover r target
    | .idle | .queued => s.endFlight

/-- The check before a later attempt of a captured RELEASE (R72, R88). -/
def State.recheckRelease (f : Flight) (frame : Frame) (r : Region) (s : State) : State :=
  if f.fallen then s.endFlight
  else if (s.entry r).role = .owner then s.startAttempt f frame
  else s.endFlight.releaseIdle r

/-- A control-queue frame before each attempt after the first (R164). -/
def State.laterAttempt (f : Flight) (frame : Frame) (q : QFrame) (s : State) : State :=
  match q with
  | .claim r => if f.fallen = false ∧ s.claimStillStands r then s.startAttempt f frame else s.endFlight
  | .handover r => s.recheckHandover f frame r
  | .take r => if s.takeStands r then s.startAttempt f frame else s.endFlight
  | .release r => s.recheckRelease f frame r
  | .join | .leave | .wait _ _ _ | .refuse _ _ _ _ | .withdraw _ _ | .repair _ => s.startAttempt f frame

/-- The deferral wait of the frame in flight ends: the attempt starts after its capture or check (R160 to R164). -/
def State.attempt (f : Flight) (s : State) : State :=
  match f.job, f.frame with
  | .presence, _ => s.startAttempt f s.presenceFrame
  | .update r, some frame => if f.fallen = false ∧ (s.entry r).role = .owner then s.startAttempt f frame else s.endFlight
  | .update _, none => s.endFlight
  | .control q, none => s.firstAttempt f q
  | .control q, some frame => s.laterAttempt f frame q

/-- The event of a deferral wait that ends on an idle line; with no such wait it changes nothing. -/
def State.waitEnds (s : State) : State :=
  match s.line.flight with
  | some f =>
    if s.ctl.mode.transmits ∧ s.line.carrier = false ∧ f.wait.isSome ∧ f.transmitting = false then (s.attempt f).leaveIfDone
    else s
  | none => s

/-! ### Outcomes (spec/09 section 9.5) -/

/-- Entry to ACTIVE at the carry of the JOIN (R115), where the bar on additions ends (R37). DESIGN CHOICE (log 34): the regions that may be served are served in ascending
order. -/
def State.enterActive (s : State) : State :=
  let s := s.transition .active .joined
  let c := s.ctl.config
  let s := { s with
    ctl := { s.ctl with presenceDue := true, presence := Timer.start c.presenceMs, backlog := c.homeRegions }
    pub := { s.pub with refresh := Timer.startOrExpire c.refreshMs, scan := Timer.start Config.scanPeriod, barred := false } }
  s.forRegions State.serve

/-- One more CLAIM frame of a record has been completed (R44, R76). -/
def ClaimRecord.countClaim (c : ClaimRecord) : ClaimRecord := { c with attempts := min Config.claimLimit (c.attempts + 1) }

/-- A CLAIM is carried (R43, R44, R76). DEDUCED (log 37): a NORMAL record that is in ASKED already has its count raised, and its state
and timers are unchanged, as R44 has it in QUEUED. -/
def State.carryClaim (f : Flight) (r : Region) (s : State) : State :=
  if f.fallen then s.withdrawIfRoom r
  else
    match s.liveRecord r with
    | some c =>
      let d := c.countClaim
      match c.state, c.kind with
      | .asking, .normal => s.setRecord r (some { d with state := .asked, answer := Timer.start s.ctl.config.answerMs })
      | .asking, .orphan => s.setRecord r (some { d with state := .orphanWait, orphanWait := Timer.start s.ctl.config.orphanMs })
      | _, _ => s.setRecord r (some d)
    | none => s.withdrawIfRoom r

/-- A CLAIM is dropped (R44, R76). DEDUCED (log 37): a NORMAL record that is in ASKED already has its count raised and is not changed
further, as R44 has it in QUEUED. -/
def State.dropClaim (f : Flight) (r : Region) (s : State) : State :=
  if f.fallen then s
  else
    match s.liveRecord r with
    | some c =>
      let d := c.countClaim
      let s := s.setRecord r (some d)
      if c.state = .asking then
        if d.attempts < Config.claimLimit then s.needClaim r
        else
          match c.kind with
          | .normal => s.exhaust r
          | .orphan => s.failRecord r .noAnswer
      else s
    | none => s

/-- A captured HANDOVER is carried: the region passes to its target (R66). -/
def State.carryHandover (f : Flight) (r : Region) (seq : Half) (s : State) : State :=
  match f.fallen, (s.serving r).handover with
  | false, .captured target list =>
    let late := (s.claimants r).filter fun p => !list.contains p
    let s := s.setEntry r { s.entry r with owner := some target, role := .peer, lastSeq := seq, held := false, tenure := .stopped }
    let s := (s.clearTable r).refuseAll r .notOwner (some target) late
    let s := s.setServing r { handover := .idle, forced := false, redirect := Timer.start s.ctl.config.answerMs }
    s.notify (.regionLost r (some target) .handover)
  | _, _ => s

/-- A captured HANDOVER is dropped: the region returns to OWNER and goes on (R67). -/
def State.dropHandover (f : Flight) (r : Region) (s : State) : State :=
  match f.fallen, (s.serving r).handover with
  | false, .captured _ _ => ((s.returnToOwner r).handoverIdle r).goOn r
  | _, _ => s

/-- This station's TAKE is carried: it becomes owner, with a grant or an unsought grant (R82). -/
def State.carryTake (r : Region) (seq : Half) (stale : Bool) (s : State) : State :=
  ((s.startTenure r seq).grantByTake r stale).goOn r

/-- This station's TAKE is dropped (R83). -/
def State.dropTake (r : Region) (s : State) : State :=
  match s.liveRecord r with
  | some c =>
    if c.state = .taking then
      s.setRecord r (some { c with state := .orphanWait, orphanWait := Timer.start s.ctl.config.orphanMs })
    else s
  | none => s

/-- A captured RELEASE is carried: the region becomes an orphan here (R73). -/
def State.carryRelease (f : Flight) (r : Region) (seq : Half) (s : State) : State :=
  if f.fallen = false ∧ (s.entry r).role = .owner then
    let late := s.claimants r
    let s := s.setEntry r { (s.entry r).makeValid.orphaned with lastSeq := seq, release := .idle }
    let s := s.setServing r { s.serving r with forced := false }
    let s := s.unpublish r
    let s := (s.clearTable r).refuseAll r .notOwner none late
    s.notify (.regionLost r none .release)
  else s

/-- A captured RELEASE is dropped: it is requested again, or gives way to a handover (R73). -/
def State.dropRelease (f : Flight) (r : Region) (s : State) : State :=
  if f.fallen then s
  else
    let s := s.releaseIdle r
    if (s.claimants r).isEmpty then s.requestRelease r else s.serve r

/-- An UPDATE is carried (R29). -/
def State.carryUpdate (f : Flight) (r : Region) (seq : Half) (s : State) : State :=
  if f.fallen = false ∧ (s.entry r).role = .owner then s.setEntry r { s.entry r with lastSeq := seq } else s

/-- The sequence of the frame in flight. -/
def Flight.seq (f : Flight) : Half :=
  match f.frame with
  | some x => x.header.seq
  | none => 0

/-- The owner of a carried frame takes the outcome (R165). -/
def State.ownerCarried (f : Flight) (s : State) : State :=
  match f.job with
  | .presence => s
  | .update r => s.carryUpdate f r f.seq
  | .control q =>
    match q with
    | .join => if s.ctl.mode = .joining then s.enterActive else s
    | .leave => if s.ctl.mode = .leaving then s.goOffline else s
    | .claim r => s.carryClaim f r
    | .handover r => s.carryHandover f r f.seq
    | .take r => s.carryTake r f.seq f.staleAtTake
    | .release r => s.carryRelease f r f.seq
    | .wait _ _ _ | .refuse _ _ _ _ | .withdraw _ _ | .repair _ => s

/-- The owner of a dropped frame takes the drop (R165). -/
def State.ownerDropped (f : Flight) (s : State) : State :=
  match f.job with
  | .presence => s
  | .update r => s.addFull r
  | .control q =>
    match q with
    | .leave => if s.ctl.mode = .leaving ∧ s.line.consecutive < Config.dropLimit then s.goOffline else s
    | .claim r => s.dropClaim f r
    | .handover r => s.dropHandover f r
    | .take r => s.dropTake r
    | .release r => s.dropRelease f r
    | .join | .wait _ _ _ | .refuse _ _ _ _ | .withdraw _ _ | .repair _ => s

/-- An attempt's echo ends matching: the frame is carried (R161, R162, R165). The echo is carrier on LRX, and a good burst (R159). -/
def State.carried (s : State) : State :=
  match s.line.flight with
  | some f =>
    if f.transmitting then
      let s := { s with line := { s.line with flight := none, consecutive := 0, carrier := true,
                                              burst := .good (BitVec.ofNat 8 s.ctl.ownId.val) } }
      (s.ownerCarried f).leaveIfDone
    else s
  | none => s

/-- The drop that isolates the station (R122, step 5 of R162). -/
def State.isolateIfLimit (f : Flight) (s : State) : State :=
  if (f.job = .control .join ∧ s.ctl.mode = .joining) ∨ (Config.dropLimit ≤ s.line.consecutive ∧ s.ctl.mode.transmits) then
    s.isolate .line
  else s

/-- The frame in flight is dropped, the steps of R162 in order. -/
def State.dropFlight (f : Flight) (s : State) : State :=
  let s := s.notify (.frameDropped f.job.kind f.job.region)
  let s := s.latchLine
  let s := { s with line := { s.line with flight := none, drops := satSucc s.line.drops,
                                          consecutive := min Config.dropLimit (s.line.consecutive + 1) } }
  ((s.ownerDropped f).isolateIfLimit f).leaveIfDone

/-- A deferral wait begins where the line is idle already (R160). -/
def State.startWaitIfIdle (s : State) : State := if s.line.carrier then s else s.startWait

/-- An attempt ends in a collision: the frame stays in flight for its next attempt, whose wait begins at once on a line that is idle
already and else when it becomes idle; after its sixteenth attempt it is dropped (R160, R161, R162). -/
def State.collided (s : State) : State :=
  match s.line.flight with
  | some f =>
    if f.transmitting then
      let s := { s with line := { s.line with collisions := satSucc s.line.collisions, burst := .bad } }
      if f.attempt < Config.maxAttempts then
        State.startWaitIfIdle
          { s with line := { s.line with flight := some { f with attempt := f.attempt + 1, transmitting := false } } }
      else s.dropFlight f
    else s
  | none => s

/-! ### The meanings -/

/-- CARRIER_START. -/
def execCarrierStart (s : State) : Host.Outcome State Fault Refusal := .next s.carrierAppears

/-- LINE_IDLE. -/
def execLineIdle (s : State) : Host.Outcome State Fault Refusal := .next s.lineBecomesIdle

/-- SCHEDULER_TAKE; the take of the last leaving work lets the LEAVE frame be queued (R119). -/
def execSchedulerTake (s : State) : Host.Outcome State Fault Refusal := .next s.schedule.leaveIfDone

/-- DEFERRAL_WAIT_EXPIRY. -/
def execDeferralWaitExpiry (s : State) : Host.Outcome State Fault Refusal := .next s.waitEnds

/-- ATTEMPT_CARRIED. -/
def execAttemptCarried (s : State) : Host.Outcome State Fault Refusal := .next s.carried

/-- ATTEMPT_COLLISION. -/
def execAttemptCollision (s : State) : Host.Outcome State Fault Refusal := .next s.collided

end Sys2Proof.Machine
end

