-- ==== Sys2Proof/Machine/Receive.lean ====
section
/-! DEFINITION. Received bursts: the receive dispatch (R171, R173), the Roster Unit (spec/05), and what the blocks do with each
kind of frame (spec/01, spec/02, spec/03, spec/04). -/

namespace Sys2Proof.Machine

/-! ### The roster (spec/05) -/

/-- What the roster makes of a frame by its kind (R92). -/
inductive RosterView where
  /-- A PRESENCE, with its profile and station state byte. -/
  | presence (profile : Profile) (state : Byte)
  /-- A JOIN, with its profile. -/
  | join (profile : Profile)
  | leave
  | other
  deriving DecidableEq, Repr

/-- The peer silence limit in ms: of the captured profile where the entry is PRESENT, and else the own M x P (R98). -/
def silenceLimit (c : ConfigBlock) (e : RosterEntry) : Nat :=
  match e.state with
  | .present => c.misses * (10 * max 2 e.presence.toNat)
  | .absent | .incompatible => c.listenMs

/-- The silence timer restarts, and frames heard increases by one (R95, R96, R97). -/
def RosterEntry.heardAgain (c : ConfigBlock) (e : RosterEntry) : RosterEntry :=
  { e with silence := Timer.start (silenceLimit c e), heard := satSucc e.heard }

/-- An entry created PRESENT (R93). -/
def createdPresent (c : ConfigBlock) (p : Profile) (a : Announced) : RosterEntry :=
  let e : RosterEntry :=
    { state := .present, major := Config.majorRevision, minor := profileMinor p, presence := p.presence, refresh := p.refresh
      homeCount := profileHomes p, announced := a, silence := .stopped, heard := 1, mismatch := false }
  { e with silence := Timer.start (silenceLimit c e) }

/-- An entry created INCOMPATIBLE (R94). -/
def createdIncompatible (c : ConfigBlock) (major : BitVec 4) : RosterEntry :=
  { RosterEntry.reset with state := .incompatible, major := major, silence := Timer.start c.listenMs, heard := 1 }

/-- The first profile field in which a frame of this revision differs from the captured profile (R95). -/
def firstMismatch (e : RosterEntry) (p : Profile) : Option ProfileField :=
  if e.major ≠ Config.majorRevision ∨ e.minor ≠ profileMinor p then some .revision
  else if e.presence ≠ p.presence then some .presencePeriod
  else if e.refresh ≠ p.refresh then some .refreshPeriod
  else if e.homeCount ≠ profileHomes p then some .homeCount
  else none

/-- A later announcement of a PRESENT peer (R95). A frame of another revision is compared on its major revision alone. -/
def State.laterAnnouncement (p : Station) (major : BitVec 4) (profile : Profile) (a : Announced) (s : State) : State :=
  let e := s.peer p
  let d := e.heardAgain s.ctl.config
  let d := if major = Config.majorRevision then { d with announced := a } else d
  let differs := if major = Config.majorRevision then firstMismatch e profile else some .revision
  match differs, e.mismatch with
  | some field, false => (s.setPeer p { d with mismatch := true }).notify (.profileMismatch p field)
  | _, _ => s.setPeer p d

/-- A PRESENCE or JOIN taken from a station by the state of its entry (R92 to R95, R97). -/
def State.announcement (p : Station) (major : BitVec 4) (profile : Profile) (a : Announced) (byJoin : Bool) (s : State) : State :=
  match (s.peer p).state with
  | .absent =>
    if major = Config.majorRevision then
      (s.setPeer p (createdPresent s.ctl.config profile a)).notify (.peerJoined p byJoin)
    else (s.setPeer p (createdIncompatible s.ctl.config major)).notify (.peerIncompatible p major)
  | .present => s.laterAnnouncement p major profile a
  | .incompatible => if byJoin then s else s.setPeer p ((s.peer p).heardAgain s.ctl.config)

/-- The entry of a lost peer: ABSENT with its timer stopped, the rest kept (R99, R100). -/
def State.dropPeer (p : Station) (s : State) : State := s.setPeer p { s.peer p with state := .absent, silence := .stopped }

/-- A LEAVE taken from a station (R100). -/
def State.peerLeft (p : Station) (s : State) : State :=
  match (s.peer p).state with
  | .absent => s.reportLoss p
  | .present | .incompatible => ((s.dropPeer p).notify (.peerGone p true)).reportLoss p

/-- The announced state of a PRESENCE: 0x02 is LEAVING, any other value ACTIVE (R178). -/
def announcedOf (b : Byte) : Announced := if b = 2 then .leaving else .active

/-- The Roster Unit takes a frame (R92). -/
def State.takeRoster (p : Station) (major : BitVec 4) (v : RosterView) (s : State) : State :=
  match v with
  | .presence profile st => s.announcement p major profile (announcedOf st) false
  | .join profile => s.announcement p major profile .active true
  | .leave => s.peerLeft p
  | .other =>
    match (s.peer p).state with
    | .present => s.setPeer p ((s.peer p).heardAgain s.ctl.config)
    | .absent | .incompatible => s

/-! ### Receive dispatch (spec/09 section 9.8) -/

/-- The burst on the line has been found to be this. -/
def State.foundBurst (b : Burst) (s : State) : State := { s with line := { s.line with burst := b } }

/-- A burst ends that was sensed outside an own attempt (R171): nothing in RESET, the counter's record alone in CONFIG, OFFLINE
and ISOLATED, and `take` in the states that take frames. While transmitting nothing is received (R161). -/
def State.sense (b : Burst) (take : State → State) (s : State) : State :=
  if s.ctl.mode = .reset ∨ s.transmitting then s
  else if s.ctl.mode.receives then take (s.foundBurst b)
  else s.foundBurst b

/-- The frames-received-good statistic (R173, R174). -/
def State.countGood (s : State) : State := { s with line := { s.line with received := satSucc s.line.received } }

/-- A good frame goes to the roster, and then to the blocks of its kind if its revision is 2 and its source is not INCOMPATIBLE
(R92, R173). -/
def State.deliver (p : Station) (major : BitVec 4) (v : RosterView) (blocks : State → State) (s : State) : State :=
  let s := s.takeRoster p major v
  if major = Config.majorRevision ∧ (s.peer p).state ≠ .incompatible then blocks s else s

/-- A good frame is counted and classified by its source (R173, R177). -/
def State.receive (h : Header) (v : RosterView) (blocks : Station → State → State) (s : State) : State :=
  s.sense (.good h.source) fun s =>
    let s := s.countGood
    match stationOf h.source with
    | some p => if p = s.ctl.ownId then s.clash else s.deliver p h.major v (blocks p)
    | none => s

/-- A frame of a kind that carries a region goes on where its region is 0 to 127 (R177). -/
def inRegion (h : Header) (f : Region → State → State) (s : State) : State :=
  match regionOf h.region with
  | some r => f r s
  | none => s

/-! ### UPDATE, HANDOVER, TAKE, RELEASE at the directory (spec/01 section 1.4) -/

/-- An UPDATE's bytes written to the image. -/
def State.writeSpan (r : Region) (offset : Nat) (data : List Byte) (s : State) : State :=
  { s with image := imageWriteBytes s.image (byteAddress r offset) data }

/-- A full update makes the replica VALID. -/
def State.markValid (r : Region) (s : State) : State := s.setEntry r (s.entry r).makeValid

/-- An UPDATE from a station that is not the directory owner (R15). -/
def State.updateFromOther (r : Region) (p : Station) (seq : Half) (offset : Nat) (data : List Byte) (s : State) : State :=
  let s := s.setEntry r { s.entry r with owner := some p, role := .peer, lastSeq := seq }
  let s := s.writeSpan r offset data
  let s := if data.length = 128 then s.markValid r else s.markStale r .ownerChange
  s.toNormalClaim r

/-- An UPDATE from the directory owner, by class (R16). -/
def State.updateFromOwner (r : Region) (seq : Half) (offset : Nat) (data : List Byte) (s : State) : State :=
  match classify seq (s.entry r).lastSeq with
  | .same | .older => s
  | .next =>
    let s := (s.setEntry r { s.entry r with lastSeq := seq }).writeSpan r offset data
    if data.length = 128 then s.markValid r else s
  | .gap =>
    let s := (s.setEntry r { s.entry r with lastSeq := seq }).writeSpan r offset data
    if data.length = 128 then s.markValid r else s.markStale r .gap

/-- A received UPDATE (R14, R15, R16); one whose span does not lie within the region is not delivered (R178). -/
def State.takeUpdate (p : Station) (seq : Half) (offset : Byte) (data : List Byte) (r : Region) (s : State) : State :=
  if data.length = 0 ∨ 128 < offset.toNat + data.length then s
  else if (s.entry r).role.owns then (s.meetRival r p (some seq)).leaveIfDone
  else if (s.entry r).owner = some p then s.updateFromOwner r seq offset.toNat data
  else s.updateFromOther r p seq offset.toNat data

/-- One ID of a remaining-claimants list is seeded (R68, R178). -/
def State.seedOne (r : Region) (b : Byte) (s : State) : State :=
  match stationOf b with
  | none => s
  | some q =>
    if q = s.ctl.ownId ∨ s.isPresent q = false ∨ q ∈ s.claimants r then s
    else if s.claims.table.length < Config.maxTable then s.appendClaimant r q
    else
      match s.ctl.mode with
      | .active | .leaving => s.answer (.refuse r q .queueFull (some s.ctl.ownId))
      | .reset | .config | .listen | .joining | .offline | .isolated => s

/-- The owner claim table seeded from a HANDOVER's list, in list order (R68). -/
def State.seed (r : Region) (ids : List Byte) (s : State) : State := ids.foldl (fun s b => s.seedOne r b) s

/-- A HANDOVER that names this station, at a station that does not own the region (R17, R68, R51, R52). -/
def State.gainRegion (r : Region) (src : Station) (seq : Half) (ids : List Byte) (content : Vector Byte 128) (s : State) : State :=
  let s := { s with image := writeRegion s.image r content }
  let s := s.startTenure r seq
  let s := s.seed r ids
  (s.grantByHandover r src).goOn r

/-- A HANDOVER or TAKE that makes another station the owner, at a station that does not own the region: ignored where it is a copy
(R19, R20). -/
def State.followOwner (r : Region) (p : Station) (seq : Half) (content : Vector Byte 128) (s : State) : State :=
  if (s.entry r).owner = some p ∧ newer seq (s.entry r).lastSeq = false then s
  else ((({ s with image := writeRegion s.image r content } : State).follow r p seq).toNormalClaim r)

/-- A received HANDOVER (R13, R17 to R19, R178). -/
def State.takeHandover (src : Station) (seq : Half) (newOwner count : Byte) (ids : Vector Byte 3) (content : Vector Byte 128)
    (r : Region) (s : State) : State :=
  match stationOf newOwner with
  | none => s
  | some x =>
    if x = src ∨ 3 < count.toNat then s
    else if x = s.ctl.ownId then
      if (s.entry r).role.owns then (if newer seq (s.entry r).lastSeq then s.addFull r else s)
      else (s.gainRegion r src seq (ids.toList.take count.toNat) content).leaveIfDone
    else if (s.entry r).role.owns then (s.meetRival r x (some seq)).leaveIfDone
    else s.followOwner r x seq content

/-- A received TAKE (R20, R78). -/
def State.takeTake (src : Station) (seq : Half) (content : Vector Byte 128) (r : Region) (s : State) : State :=
  if (s.entry r).role.owns then (s.meetRival r src (some seq)).leaveIfDone else s.followOwner r src seq content

/-- A received RELEASE (R21, R75). -/
def State.takeRelease (src : Station) (seq : Half) (r : Region) (s : State) : State :=
  if (s.entry r).role = .peer ∧ (s.entry r).owner = some src then
    (s.setEntry r { (s.entry r).orphaned with lastSeq := seq }).toOrphanClaim r
  else s

/-! ### Presence reconciliation (spec/04 section 4.3) and JOIN -/

/-- One region against the owned list of a PRESENCE: R85 where it is listed, R86 where it is omitted. -/
def State.reconcile (src : Station) (owned : BitVec 128) (r : Region) (s : State) : State :=
  if owned.getLsbD r.val then
    if (s.entry r).role.owns then s.meetRival r src none
    else if (s.entry r).owner = some src then s
    else ((s.setEntry r { s.entry r with owner := some src, role := .peer }).markStale r .reconcile).toNormalClaim r
  else s.loseOwner src r

/-- A received PRESENCE at the directory (R85, R86). -/
def State.takePresenceList (src : Station) (owned : BitVec 128) (s : State) : State :=
  (s.forRegions (State.reconcile src owned)).leaveIfDone

/-- Catch-up on a JOIN: in ACTIVE and LEAVING, where the joiner is PRESENT (R32). -/
def State.catchUp (src : Station) (s : State) : State :=
  match s.ctl.mode with
  | .active | .leaving => if s.isPresent src then s.addFullAll else s
  | .reset | .config | .listen | .joining | .offline | .isolated => s

/-! ### Claim traffic (spec/03, spec/04 section 4.2) -/

/-- The captured CLAIM of the region in flight no longer stands: it is not sent again (R76). -/
def LineUnit.claimFell (r : Region) (l : LineUnit) : LineUnit :=
  let fall (f : Flight) : Flight := if f.job = .control (.claim r) ∧ f.frame.isSome then { f with fallen := true } else f
  { l with flight := l.flight.map fall }

/-- An ORPHAN record deferred or was answered while its CLAIM was pending (R76, R77, R84): its CLAIM mark is cleared (log 14), and its
CLAIM in flight, once captured, is withdrawn before its next attempt. A CLAIM not yet captured faces the test of R43. DEDUCED: the
withdrawn CLAIM is no longer pending, so a return to ASKING hands over a fresh one (logs 15 and 38). -/
def State.claimWithdrawn (r : Region) (s : State) : State :=
  let s := s.dropClaimMark r
  { s with line := s.line.claimFell r }

/-- A rival's CLAIM against this station's orphan claim: in ASKING the record defers, and in every other state the CLAIM is ignored
(R77). -/
def State.compareOrphan (p : Station) (r : Region) (c : ClaimRecord) (s : State) : State :=
  match c.state with
  | .asking =>
    (s.setRecord r (some { c with state := .deferred, deferredTo := some p,
                                  orphanWait := Timer.start (2 * s.ctl.config.orphanMs) })).claimWithdrawn r
  | .asked | .queued | .orphanWait | .deferred | .taking => s

/-- A CLAIM at an owner in ACTIVE (R56). -/
def State.claimAtOwner (p : Station) (r : Region) (s : State) : State :=
  if p ∈ s.claimants r then s.answer (.wait r p (s.position r p))
  else if s.tableRoom r then
    let s := s.appendClaimant r p
    (s.answer (.wait r p (s.position r p))).serve r
  else s.answer (.refuse r p .queueFull (some s.ctl.ownId))

/-- A CLAIM at an owner in LEAVING (R57). -/
def State.claimAtLeaver (p : Station) (r : Region) (s : State) : State :=
  if s.ctl.leaveQueued then s
  else if s.handoverPending r then
    if p ∈ s.claimants r then s
    else if s.tableRoom r then s.appendClaimant r p
    else s.answer (.refuse r p .leaving (some s.ctl.ownId))
  else s.answer (.refuse r p .leaving (some s.ctl.ownId))

/-- A CLAIM at an owner in LISTEN or JOINING: queued where there is room, never answered (R57). -/
def State.claimAtJoiner (p : Station) (r : Region) (s : State) : State :=
  if p ∈ s.claimants r then s else if s.tableRoom r then s.appendClaimant r p else s

/-- The redirection of a late claimant while the redirect timer runs (R58). -/
def State.redirectClaim (p : Station) (r : Region) (s : State) : State :=
  if (s.serving r).redirect.isRunning then s.answer (.refuse r p .notOwner (s.entry r).owner) else s

/-- A CLAIM at a station that does not own the region: with an ORPHAN record it is compared with that claim and draws no answer (R77),
and else it is redirected while the redirect timer runs (R58). DEDUCED (log 36): R58's redirect holds at an ORPHAN region too where
this station has no ORPHAN record, with believed owner none. -/
def State.claimAtOther (p : Station) (r : Region) (s : State) : State :=
  match s.liveRecord r with
  | some c =>
    match c.kind with
    | .orphan => s.compareOrphan p r c
    | .normal => s.redirectClaim p r
  | none => s.redirectClaim p r

/-- A received CLAIM (R56, R57, R58, R77). -/
def State.takeClaim (p : Station) (r : Region) (s : State) : State :=
  if (s.entry r).role.owns then
    match s.ctl.mode with
    | .active => s.claimAtOwner p r
    | .leaving => (s.claimAtLeaver p r).leaveIfDone
    | .listen | .joining => s.claimAtJoiner p r
    | .reset | .config | .offline | .isolated => s
  else s.claimAtOther p r

/-- A WAIT taken by a record (R46, R84). -/
def State.waitAtRecord (p : Station) (r : Region) (c : ClaimRecord) (s : State) : State :=
  let patience := if c.patience.isRunning then c.patience else Timer.start s.ctl.config.patienceMs
  match c.kind, c.state with
  | .normal, _ =>
    (s.setRecord r (some { c with state := .queued, answer := .stopped, attempts := 0, queuedAt := some p,
                                  patience := patience })).dropClaimMark r
  | .orphan, .taking => s
  | .orphan, _ =>
    (s.setRecord r (some { c with kind := .normal, state := .queued, attempts := 0, queuedAt := some p, orphanWait := .stopped,
                                  deferredTo := none, patience := Timer.start s.ctl.config.patienceMs })).claimWithdrawn r

/-- A received WAIT (R46, R84, R178). -/
def State.takeWait (p : Station) (claimant : Byte) (r : Region) (s : State) : State :=
  if stationOf claimant = some s.ctl.ownId then
    match s.liveRecord r with
    | some c => s.waitAtRecord p r c
    | none => if s.closing r ∨ (s.entry r).role.owns then s else s.withdrawIfRoom r
  else s

/-- The live owner that a NOT_OWNER refusal from a station points to (R47, R84, R178). -/
def State.liveBelieved (s : State) (src : Station) (believed : Byte) : Option Station :=
  match stationOf believed with
  | some b => if b = s.ctl.ownId ∨ b = src ∨ s.isPresent b = false then none else some b
  | none => none

/-- The directory follows a redirection: the owner field and the role alone change (R47, R84). -/
def State.redirectTo (r : Region) (b : Station) (s : State) : State := s.setEntry r { s.entry r with owner := some b, role := .peer }

/-- A REFUSE taken by a NORMAL record (R47, R48). -/
def State.refuseNormal (p : Station) (reason : RefuseReason) (believed : Byte) (r : Region) (c : ClaimRecord) (s : State) : State :=
  match reason with
  | .notOwner =>
    match s.liveBelieved p believed with
    | none => s.toOrphanClaim r
    | some b =>
      let s := s.redirectTo r b
      if c.state = .asking then s
      else if c.attempts < Config.claimLimit then
        (s.setRecord r (some { c with state := .asking, answer := .stopped })).needClaim r
      else s.failRecord r .refused
  | .queueFull =>
    if c.state = .asking then s
    else if c.attempts < Config.claimLimit then
      s.setRecord r (some { c with state := .asked, answer := Timer.start (4 * s.ctl.config.answerMs) })
    else s.failRecord r .refused
  | .leaving => s.failRecord r .refused

/-- A REFUSE taken by an ORPHAN record (R84). -/
def State.refuseOrphan (p : Station) (reason : RefuseReason) (believed : Byte) (r : Region) (c : ClaimRecord) (s : State) : State :=
  match reason with
  | .notOwner =>
    match s.liveBelieved p believed with
    | none => s
    | some b => (s.redirectTo r b).toNormalClaim r
  | .queueFull =>
    if c.state = .taking then s
    else
      (s.setRecord r (some { c with kind := .normal, state := .asked, attempts := 0, orphanWait := .stopped, deferredTo := none,
                                    answer := Timer.start (4 * s.ctl.config.answerMs) })).claimWithdrawn r
  | .leaving => if c.state = .taking then s else s.failRecord r .refused

/-- A NORMAL record takes a REFUSE: in ASKING and ASKED from any source, in QUEUED from its queued at or the directory owner (R47). -/
def refuseTaken (c : ClaimRecord) (owner : Option Station) (p : Station) : Bool :=
  match c.state with
  | .queued => c.queuedAt == some p || owner == some p
  | .asking | .asked | .orphanWait | .deferred | .taking => true

/-- A received REFUSE (R47, R48, R84, R178). -/
def State.takeRefuse (p : Station) (claimant reason believed : Byte) (r : Region) (s : State) : State :=
  if stationOf claimant = some s.ctl.ownId then
    match reasonOf reason, s.liveRecord r with
    | some why, some c =>
      match c.kind with
      | .normal => if refuseTaken c (s.entry r).owner p then s.refuseNormal p why believed r c else s
      | .orphan => s.refuseOrphan p why believed r c
    | _, _ => s
  else s

/-- A received WITHDRAW (R59). -/
def State.takeWithdraw (p : Station) (r : Region) (s : State) : State :=
  if (s.entry r).role.owns then s.removeClaimant r p else s

/-- A received REPAIR: an addition is made where the role is OWNER (R33). -/
def State.takeRepair (r : Region) (s : State) : State := s.addFull r

/-! ### The meanings -/

/-- BAD_BURST: counted as a check error in the states that take frames (R171, R174). -/
def execBadBurst (s : State) : Host.Outcome State Fault Refusal :=
  .next (s.sense .bad fun s => { s with line := { s.line with checkErrors := satSucc s.line.checkErrors } })

/-- ID_CLASH_FRAME (R103, R121, R173). -/
def execIdClashFrame (s : State) : Host.Outcome State Fault Refusal :=
  .next (s.sense (.good (BitVec.ofNat 8 s.ctl.ownId.val)) fun s => s.countGood.clash)

/-- NO_SOURCE_FRAME (R173, R177). -/
def execNoSourceFrame (source : Byte) (s : State) : Host.Outcome State Fault Refusal :=
  if (Instr.noSourceFrame source).wellFormed then .next (s.sense (.good source) State.countGood) else .refused .illFormed

/-- UNKNOWN_KIND_FRAME: the roster alone takes it (R176). -/
def execUnknownKindFrame (code : BitVec 4) (h : Header) (s : State) : Host.Outcome State Fault Refusal :=
  if (Instr.unknownKindFrame code h).wellFormed then .next (s.receive h .other fun _ s => s) else .refused .illFormed

/-- PRESENCE_RECEIVED. -/
def execPresenceReceived (h : Header) (profile : Profile) (state : Byte) (owned : BitVec 128) (s : State) :
    Host.Outcome State Fault Refusal :=
  .next (s.receive h (.presence profile state) fun p s => s.takePresenceList p owned)

/-- JOIN_RECEIVED. -/
def execJoinReceived (h : Header) (profile : Profile) (s : State) : Host.Outcome State Fault Refusal :=
  .next (s.receive h (.join profile) State.catchUp)

/-- LEAVE_RECEIVED: no block beyond the roster takes it (R100, R173). -/
def execLeaveReceived (h : Header) (s : State) : Host.Outcome State Fault Refusal := .next (s.receive h .leave fun _ s => s)

/-- CLAIM_RECEIVED. -/
def execClaimReceived (h : Header) (s : State) : Host.Outcome State Fault Refusal :=
  .next (s.receive h .other fun p => inRegion h (State.takeClaim p))

/-- WAIT_RECEIVED; the position is not read (R46, R178). -/
def execWaitReceived (h : Header) (claimant : Byte) (s : State) : Host.Outcome State Fault Refusal :=
  .next (s.receive h .other fun p => inRegion h (State.takeWait p claimant))

/-- REFUSE_RECEIVED. -/
def execRefuseReceived (h : Header) (claimant reason believed : Byte) (s : State) : Host.Outcome State Fault Refusal :=
  .next (s.receive h .other fun p => inRegion h (State.takeRefuse p claimant reason believed))

/-- WITHDRAW_RECEIVED. -/
def execWithdrawReceived (h : Header) (s : State) : Host.Outcome State Fault Refusal :=
  .next (s.receive h .other fun p => inRegion h (State.takeWithdraw p))

/-- HANDOVER_RECEIVED. -/
def execHandoverReceived (h : Header) (newOwner count : Byte) (ids : Vector Byte 3) (content : Vector Byte 128) (s : State) :
    Host.Outcome State Fault Refusal :=
  .next (s.receive h .other fun p => inRegion h (State.takeHandover p h.seq newOwner count ids content))

/-- TAKE_RECEIVED. -/
def execTakeReceived (h : Header) (content : Vector Byte 128) (s : State) : Host.Outcome State Fault Refusal :=
  .next (s.receive h .other fun p => inRegion h (State.takeTake p h.seq content))

/-- RELEASE_RECEIVED. -/
def execReleaseReceived (h : Header) (s : State) : Host.Outcome State Fault Refusal :=
  .next (s.receive h .other fun p => inRegion h (State.takeRelease p h.seq))

/-- UPDATE_RECEIVED. -/
def execUpdateReceived (h : Header) (offset length : Byte) (data : List Byte) (s : State) : Host.Outcome State Fault Refusal :=
  if (Instr.updateReceived h offset length data).wellFormed then
    .next (s.receive h .other fun p => inRegion h (State.takeUpdate p h.seq offset data))
  else .refused .illFormed

/-- REPAIR_RECEIVED. -/
def execRepairReceived (h : Header) (s : State) : Host.Outcome State Fault Refusal :=
  .next (s.receive h .other fun _ => inRegion h State.takeRepair)

end Sys2Proof.Machine
end

