-- ==== Sys2Proof/Machine/Timers.lean ====
section
/-! DEFINITION. Reset, the millisecond tick, the timer expiries and the home backlog (spec/06, and the timers of spec/02 to
spec/05). -/

namespace Sys2Proof.Machine

/-! ### Reset and the tick -/

/-- nRST goes low: every piece of state takes its pin reset value (R108); the commands that wait are not the part's. -/
def State.pinReset (s : State) : State := { State.reset with pending := s.pending }

/-- nRST goes high: the straps are sampled and the clearing begins; all else holds its pin reset value until then, but for the
mailbox, which has taken what was written while nRST was low (R108, R143). -/
def State.leavePinReset (straps : Station) (s : State) : State :=
  if s.port.nrstHigh then s
  else
    { State.reset with
      port := { nrstHigh := true, answer := s.port.answer }
      ctl := { Controller.reset with ownId := straps }
      cmd := { CommandUnit.reset with argument := s.cmd.argument, command := s.cmd.command, result := s.cmd.result }
      pending := s.pending }

/-- The Image Store clearing ends: CONFIG, with the cause of the reset (R110). -/
def State.clearingEnds (s : State) : State :=
  if s.ctl.mode = .reset ∧ s.port.nrstHigh then s.transition .config s.ctl.cause else s

/-- One tick of a directory entry: its tenure timer, and its stale age while the replica is STALE in a receiving state (R6, R9). -/
def DirEntry.tick (receiving : Bool) (e : DirEntry) : DirEntry :=
  { e with tenure := e.tenure.tick
           staleAge := if receiving && e.replica == .stale then satSucc e.staleAge else e.staleAge }

/-- One tick of a claim record. -/
def ClaimRecord.tick (c : ClaimRecord) : ClaimRecord :=
  { c with answer := c.answer.tick, patience := c.patience.tick, orphanWait := c.orphanWait.tick }

/-- One tick of the whole station, from the release of nRST onward (R107). -/
def State.tick (s : State) : State :=
  if s.port.nrstHigh then
    { s with
      dir := s.dir.map (DirEntry.tick s.ctl.mode.receives)
      pub := { s.pub with refresh := s.pub.refresh.tick, scan := s.pub.scan.tick }
      claims := { s.claims with
        records := s.claims.records.map (Option.map ClaimRecord.tick)
        serve := s.claims.serve.map fun e => { e with redirect := e.redirect.tick } }
      roster := s.roster.map fun e => { e with silence := e.silence.tick }
      ctl := { s.ctl with ticks := s.ctl.ticks + 1, listen := s.ctl.listen.tick, leave := s.ctl.leave.tick
                          presence := s.ctl.presence.tick } }
  else s

/-! ### Expiries -/

/-- The listen timer expires: JOINING, and a JOIN is handed to the Line Unit (R113). -/
def State.listenExpires (s : State) : State :=
  if s.ctl.mode = .listen ∧ s.ctl.listen.due then
    let s := { s with ctl := { s.ctl with listen := .stopped } }
    (s.transition .joining .listened).hand .join
  else s

/-- The leave timer expires: the LEAVE frame is queued (R119). -/
def State.leaveExpires (s : State) : State :=
  if s.ctl.mode = .leaving ∧ s.ctl.leave.due ∧ s.ctl.leaveQueued = false then s.queueLeave else s

/-- The presence timer expires: a PRESENCE is made due and the timer restarts at P (R115). -/
def State.presenceExpires (s : State) : State :=
  if s.ctl.presence.due then
    { s with ctl := { s.ctl with presenceDue := true, presence := Timer.start s.ctl.config.presenceMs } }
  else s

/-- The refresh timer expires: every OWNER region receives a full addition and the timer restarts (R31). -/
def State.refreshExpires (s : State) : State :=
  if s.pub.refresh.due then
    let s := s.addFullAll
    { s with pub := { s.pub with refresh := Timer.start s.ctl.config.refreshMs } }
  else s

/-- A region is selected by a scan (R34). -/
def State.scanSelects (s : State) (r : Region) : Bool :=
  let e := s.entry r
  e.role == .peer && e.replica == .stale && s.ctl.config.repairMs ≤ e.staleAge &&
    match e.owner with
    | some p => s.isPresent p
    | none => false

/-- A selected region's REPAIR is queued, with its stale age restarted and its mark set; on a full queue it is suppressed and
counted, and the region is left as it was (R35). -/
def State.scanRegion (r : Region) (s : State) : State :=
  if s.scanSelects r then
    if s.line.room then (s.answer (.repair r)).setEntry r { s.entry r with staleAge := 0, repair := true }
    else s.answer (.repair r)
  else s

/-- The scan timer expires: the directory is scanned and the timer restarts (R34). -/
def State.scanExpires (s : State) : State :=
  if s.pub.scan.due then
    let s := s.forRegions State.scanRegion
    { s with pub := { s.pub with scan := Timer.start Config.scanPeriod } }
  else s

/-- A region's tenure timer expires, which may make it servable (R9, R62). -/
def State.tenureExpires (r : Region) (s : State) : State :=
  if (s.entry r).tenure.due then (s.setEntry r { s.entry r with tenure := .stopped }).serve r else s

/-- A record's answer timer expires in ASKED: its CLAIM is sent again, or its CLAIMs are exhausted (R45). -/
def State.answerExpires (r : Region) (s : State) : State :=
  match s.liveRecord r with
  | some c =>
    if c.kind = .normal ∧ c.state = .asked ∧ c.answer.due then
      if c.attempts < Config.claimLimit then
        (s.setRecord r (some { c with state := .asking, answer := .stopped })).needClaim r
      else s.exhaust r
    else s
  | none => s

/-- A NORMAL record's patience timer expires: the claim fails with PATIENCE (R49). -/
def State.patienceExpires (r : Region) (s : State) : State :=
  match s.liveRecord r with
  | some c => if c.kind = .normal ∧ c.patience.due then s.failRecord r .patience else s
  | none => s

/-- An ORPHAN record's orphan-wait timer expires: R80 in ORPHAN_WAIT, R79 in DEFERRED. -/
def State.orphanWaitExpires (r : Region) (s : State) : State :=
  match s.liveRecord r with
  | some c =>
    if c.kind = .orphan ∧ c.orphanWait.due then
      match c.state with
      | .orphanWait => (s.setRecord r (some { c with state := .taking, orphanWait := .stopped })).hand (.take r)
      | .deferred =>
        if c.attempts < Config.claimLimit then
          (s.setRecord r (some { c with state := .asking, orphanWait := .stopped, deferredTo := none })).needClaim r
        else s.failRecord r .noAnswer
      | .asking | .asked | .queued | .taking => s
    else s
  | none => s

/-- A region's redirect timer expires (R58). -/
def State.redirectExpires (r : Region) (s : State) : State :=
  if (s.serving r).redirect.due then s.setServing r { s.serving r with redirect := .stopped } else s

/-- A roster entry's silence timer expires: the peer is lost by silence (R99). -/
def State.silenceExpires (p : Station) (s : State) : State :=
  if (s.peer p).silence.due then ((s.dropPeer p).notify (.peerGone p false)).reportLoss p else s

/-- The lowest region of the home backlog is taken, by the table of R116. -/
def State.takeHome (s : State) : State :=
  match s.ctl.mode, s.ctl.backlog with
  | .active, r :: rest =>
    let left := { s with ctl := { s.ctl with backlog := rest } }
    if (s.entry r).role.owns ∨ (s.liveRecord r).isSome then left
    else if s.claimTaken r then left.requestClaim r .home
    else s
  | _, _ => s

/-! ### The meanings -/

/-- NRST_ASSERTED. -/
def execNrstAsserted (s : State) : Host.Outcome State Fault Refusal := .next s.pinReset

/-- NRST_RELEASED. -/
def execNrstReleased (straps : Station) (s : State) : Host.Outcome State Fault Refusal := .next (s.leavePinReset straps)

/-- IMAGE_CLEAR_COMPLETE. -/
def execImageClearComplete (s : State) : Host.Outcome State Fault Refusal := .next s.clearingEnds

/-- MS_TICK. -/
def execMsTick (s : State) : Host.Outcome State Fault Refusal := .next s.tick

/-- LISTEN_TIMER_EXPIRY. -/
def execListenTimerExpiry (s : State) : Host.Outcome State Fault Refusal := .next s.listenExpires

/-- LEAVE_TIMER_EXPIRY. -/
def execLeaveTimerExpiry (s : State) : Host.Outcome State Fault Refusal := .next s.leaveExpires

/-- PRESENCE_TIMER_EXPIRY. -/
def execPresenceTimerExpiry (s : State) : Host.Outcome State Fault Refusal := .next s.presenceExpires

/-- REFRESH_TIMER_EXPIRY. -/
def execRefreshTimerExpiry (s : State) : Host.Outcome State Fault Refusal := .next s.refreshExpires

/-- SCAN_TIMER_EXPIRY. -/
def execScanTimerExpiry (s : State) : Host.Outcome State Fault Refusal := .next s.scanExpires

/-- TENURE_TIMER_EXPIRY. -/
def execTenureTimerExpiry (r : Region) (s : State) : Host.Outcome State Fault Refusal := .next (s.tenureExpires r)

/-- ANSWER_TIMER_EXPIRY. -/
def execAnswerTimerExpiry (r : Region) (s : State) : Host.Outcome State Fault Refusal := .next (s.answerExpires r)

/-- PATIENCE_TIMER_EXPIRY. -/
def execPatienceTimerExpiry (r : Region) (s : State) : Host.Outcome State Fault Refusal := .next (s.patienceExpires r)

/-- ORPHAN_WAIT_TIMER_EXPIRY. -/
def execOrphanWaitTimerExpiry (r : Region) (s : State) : Host.Outcome State Fault Refusal := .next (s.orphanWaitExpires r)

/-- REDIRECT_TIMER_EXPIRY. -/
def execRedirectTimerExpiry (r : Region) (s : State) : Host.Outcome State Fault Refusal := .next (s.redirectExpires r)

/-- SILENCE_TIMER_EXPIRY. -/
def execSilenceTimerExpiry (p : Station) (s : State) : Host.Outcome State Fault Refusal := .next (s.silenceExpires p)

/-- HOME_CLAIM. -/
def execHomeClaim (s : State) : Host.Outcome State Fault Refusal := .next s.takeHome

end Sys2Proof.Machine
end

