-- ==== Sys2Proof/Machine/Dispatch.lean ====
section
/-! DEFINITION. The dispatch: one arm for each command of the block. -/

namespace Sys2Proof.Machine

def exec (i : Instr) (s : State) : Host.Outcome State Fault Refusal :=
  match i with
  | .nrstAsserted => Sys2Proof.Machine.execNrstAsserted s
  | .nrstReleased straps => Sys2Proof.Machine.execNrstReleased straps s
  | .imageClearComplete => Sys2Proof.Machine.execImageClearComplete s
  | .msTick => Sys2Proof.Machine.execMsTick s
  | .windowRead word lanes => Sys2Proof.Machine.execWindowRead word lanes s
  | .windowWrite word lanes data => Sys2Proof.Machine.execWindowWrite word lanes data s
  | .configurationWrite word lanes data => Sys2Proof.Machine.execConfigurationWrite word lanes data s
  | .noticePop lanes _ => Sys2Proof.Machine.execNoticePop lanes s
  | .flagsWrite lanes data => Sys2Proof.Machine.execFlagsWrite lanes data s
  | .maskWrite lanes data => Sys2Proof.Machine.execMaskWrite lanes data s
  | .registerWrite word lanes data => Sys2Proof.Machine.execRegisterWrite word lanes data s
  | .joinCommand arg => Sys2Proof.Machine.execJoinCommand arg s
  | .leaveCommand arg => Sys2Proof.Machine.execLeaveCommand arg s
  | .restartCommand arg straps => Sys2Proof.Machine.execRestartCommand arg straps s
  | .claimCommand arg => Sys2Proof.Machine.execClaimCommand arg s
  | .withdrawCommand arg => Sys2Proof.Machine.execWithdrawCommand arg s
  | .releaseCommand arg => Sys2Proof.Machine.execReleaseCommand arg s
  | .holdCommand arg => Sys2Proof.Machine.execHoldCommand arg s
  | .unholdCommand arg => Sys2Proof.Machine.execUnholdCommand arg s
  | .refreshCommand arg => Sys2Proof.Machine.execRefreshCommand arg s
  | .unknownCommand arg code => Sys2Proof.Machine.execUnknownCommand arg code s
  | .carrierStart => Sys2Proof.Machine.execCarrierStart s
  | .lineIdle => Sys2Proof.Machine.execLineIdle s
  | .schedulerTake => Sys2Proof.Machine.execSchedulerTake s
  | .deferralWaitExpiry => Sys2Proof.Machine.execDeferralWaitExpiry s
  | .attemptCarried => Sys2Proof.Machine.execAttemptCarried s
  | .attemptCollision => Sys2Proof.Machine.execAttemptCollision s
  | .badBurst => Sys2Proof.Machine.execBadBurst s
  | .idClashFrame => Sys2Proof.Machine.execIdClashFrame s
  | .noSourceFrame source => Sys2Proof.Machine.execNoSourceFrame source s
  | .unknownKindFrame code h => Sys2Proof.Machine.execUnknownKindFrame code h s
  | .presenceReceived h profile state owned => Sys2Proof.Machine.execPresenceReceived h profile state owned s
  | .joinReceived h profile => Sys2Proof.Machine.execJoinReceived h profile s
  | .leaveReceived h => Sys2Proof.Machine.execLeaveReceived h s
  | .claimReceived h => Sys2Proof.Machine.execClaimReceived h s
  | .waitReceived h claimant _ => Sys2Proof.Machine.execWaitReceived h claimant s
  | .refuseReceived h claimant reason believed => Sys2Proof.Machine.execRefuseReceived h claimant reason believed s
  | .withdrawReceived h => Sys2Proof.Machine.execWithdrawReceived h s
  | .handoverReceived h newOwner count ids content => Sys2Proof.Machine.execHandoverReceived h newOwner count ids content s
  | .takeReceived h content => Sys2Proof.Machine.execTakeReceived h content s
  | .releaseReceived h => Sys2Proof.Machine.execReleaseReceived h s
  | .updateReceived h offset length data => Sys2Proof.Machine.execUpdateReceived h offset length data s
  | .repairReceived h => Sys2Proof.Machine.execRepairReceived h s
  | .listenTimerExpiry => Sys2Proof.Machine.execListenTimerExpiry s
  | .leaveTimerExpiry => Sys2Proof.Machine.execLeaveTimerExpiry s
  | .presenceTimerExpiry => Sys2Proof.Machine.execPresenceTimerExpiry s
  | .refreshTimerExpiry => Sys2Proof.Machine.execRefreshTimerExpiry s
  | .scanTimerExpiry => Sys2Proof.Machine.execScanTimerExpiry s
  | .tenureTimerExpiry r => Sys2Proof.Machine.execTenureTimerExpiry r s
  | .answerTimerExpiry r => Sys2Proof.Machine.execAnswerTimerExpiry r s
  | .patienceTimerExpiry r => Sys2Proof.Machine.execPatienceTimerExpiry r s
  | .orphanWaitTimerExpiry r => Sys2Proof.Machine.execOrphanWaitTimerExpiry r s
  | .redirectTimerExpiry r => Sys2Proof.Machine.execRedirectTimerExpiry r s
  | .silenceTimerExpiry p => Sys2Proof.Machine.execSilenceTimerExpiry p s
  | .homeClaim => Sys2Proof.Machine.execHomeClaim s

end Sys2Proof.Machine
end

