-- ==== Sys2Proof/Safety.lean ====
section
/-! DEFINITION. What counts as a safe station: the laws that the spec states of every state, and the predicates in which the
statements of Sys2Proof/Certificates speak. -/

namespace Sys2Proof.Safety

open Sys2Proof.Machine

/-! ### Laws that every step keeps -/

/-- The Image Store is in its one canonical form: addresses rising and below 16 384, no listed byte 0x00. -/
def ImageLaw (s : State) : Prop := imageWf s.image = true

/-- No collection and no count passes its limit. -/
structure BoundsLaw (s : State) : Prop where
  /-- R151. -/
  notices : s.cmd.notices.length ≤ 32
  /-- R151. -/
  overflow : s.cmd.overflow ≤ 65535
  /-- R131. -/
  parked : s.parked.length ≤ 16
  /-- R166. -/
  queue : s.line.queue.length ≤ 16
  /-- R167: a queue with marks waiting stays full. -/
  marks : s.line.marks ≠ [] → s.line.queue.length = 16
  /-- R162. -/
  consecutive : s.line.consecutive ≤ 4
  /-- R170. -/
  controlRun : s.line.controlRun ≤ 4
  /-- R162: the attempt about to be made or under way. -/
  attempts : ∀ f, s.line.flight = some f → 1 ≤ f.attempt ∧ f.attempt ≤ 16
  /-- R174. -/
  statistics : s.line.received ≤ 65535 ∧ s.line.checkErrors ≤ 65535 ∧ s.line.collisions ≤ 65535 ∧ s.line.drops ≤ 65535 ∧
    s.line.suppressed ≤ 65535
  /-- R6. -/
  staleAge : ∀ r, (s.entry r).staleAge ≤ 65535
  /-- Spec/03 section 3.2. -/
  claims : ∀ r c, s.record r = some c → c.attempts ≤ 3
  /-- Spec/05 section 5.1. -/
  roster : ∀ p, (s.peer p).heard ≤ 65535 ∧ (s.peer p).homeCount ≤ 128

/-- A role and an owner field agree at the station of an ID (R3). -/
def agrees (ownId : Station) (e : DirEntry) : Prop :=
  match e.role with
  | .owner | .handing => e.owner = some ownId
  | .peer => ∃ p, p ≠ ownId ∧ e.owner = some p
  | .orphan => e.owner = none

/-- R3, with what keeps it: no claimant, no handover target and no roster entry is the station itself (R55, R61, R90). -/
structure RolesLaw (s : State) : Prop where
  /-- R3. -/
  roles : ∀ r, agrees s.ctl.ownId (s.entry r)
  /-- R55. -/
  claimants : ∀ e, e ∈ s.claims.table → e.claimant ≠ s.ctl.ownId
  /-- R61: the target of a captured HANDOVER is another station. -/
  targets : ∀ r target list, (s.serving r).handover = .captured target list → target ≠ s.ctl.ownId
  /-- R90: the entry indexed by own ID stays at its reset value. -/
  roster : s.peer s.ctl.ownId = RosterEntry.reset

/-- R3, R4, R6 to R9, R22, R41, R55, R61, R81, R90 and R131 together: what stands at a region agrees with its role. -/
structure OwnershipLaw (s : State) : Prop where
  /-- R3. -/
  roles : RolesLaw s
  /-- R4: an owned region's replica is VALID. -/
  valid : ∀ r, (s.entry r).role.owns = true → (s.entry r).replica = .valid
  /-- R6, R7: at a VALID replica the stale age is 0 and no REPAIR is outstanding. -/
  fresh : ∀ r, (s.entry r).replica = .valid → (s.entry r).staleAge = 0 ∧ (s.entry r).repair = false
  /-- R8, R9: the held mark and the tenure timer stand at owned regions only. -/
  marks : ∀ r, (s.entry r).role.owns = false → (s.entry r).held = false ∧ (s.entry r).tenure = .stopped
  /-- R22: every region of the publish set has role OWNER, and its span runs upward. -/
  published : ∀ r e, s.pubEntry r = some e → (s.entry r).role = .owner ∧ e.low ≤ e.high
  /-- R41: at most 8 records, and none at an owned region. -/
  records : s.recordCount ≤ 8 ∧ ∀ r, (s.entry r).role.owns = true → s.record r = none
  /-- R55: at most 16 entries and 4 for a region, no two alike, each for an owned region. -/
  table : s.claims.table.length ≤ 16 ∧ s.claims.table.Nodup ∧ (∀ r, (s.claimants r).length ≤ 4) ∧
    ∀ e, e ∈ s.claims.table → (s.entry e.region).role.owns = true
  /-- R61: while the state is CAPTURED the role is HANDING. -/
  captured : ∀ r target list, (s.serving r).handover = .captured target list → (s.entry r).role = .handing
  /-- R81: while a TAKE is on the line its region is not owned. -/
  taking : ∀ f r, s.line.flight = some f → f.transmitting = true → f.job = .control (.take r) → (s.entry r).role.owns = false
  /-- R131: every parked write stands behind a live record of its region, and its lanes form a group. -/
  parked : ∀ w, w ∈ s.parked → (s.liveRecord w.region).isSome = true ∧ (laneGroup w.lanes).isSome = true

/-- In RESET, CONFIG, OFFLINE and ISOLATED the station owns nothing, claims nothing, sends nothing and runs none of these
timers (R38, R69, R104, R123, R124, R175). -/
def QuietLaw (s : State) : Prop :=
  s.ctl.mode = .reset ∨ s.ctl.mode = .config ∨ s.ctl.mode = .offline ∨ s.ctl.mode = .isolated →
    (∀ r, (s.entry r).role.owns = false ∧ s.pubEntry r = none ∧ s.record r = none ∧ s.serving r = ⟨.idle, false, .stopped⟩) ∧
    s.claims.table = [] ∧ s.line.queue = [] ∧ s.line.marks = [] ∧ s.line.flight = none ∧ s.line.controlRun = 0 ∧
    s.pub.refresh = .stopped ∧ s.pub.scan = .stopped ∧ s.ctl.listen = .stopped ∧ s.ctl.leave = .stopped ∧
    s.ctl.presence = .stopped ∧ s.ctl.presenceDue = false ∧ s.ctl.backlog = [] ∧ ∀ p, (s.peer p).silence = .stopped

/-- Once the LEAVE frame is queued, in LEAVING only, nothing else waits to be sent and nothing is published (R119, R37). From then on
the publish set stays empty, over every later state, until the station is next ACTIVE (R37). -/
structure LeaveLaw (s : State) : Prop where
  /-- R119. -/
  queued : s.ctl.leaveQueued = true →
    s.ctl.mode = .leaving ∧ (∀ e, e ∈ s.line.queue → e.frame = .leave) ∧ s.line.queue.length ≤ 1 ∧ s.line.marks = [] ∧
    s.ctl.leave = .stopped ∧ s.ctl.presence = .stopped ∧ s.ctl.presenceDue = false ∧ s.pub.barred = true
  /-- R37. -/
  barred : s.pub.barred = true →
    s.ctl.mode ≠ .active ∧ (s.ctl.mode = .leaving → s.ctl.leaveQueued = true) ∧ (∀ r, s.pubEntry r = none) ∧
    s.pub.refresh = .stopped ∧ s.pub.scan = .stopped

/-! ### Vocabulary of the statements -/

/-- The defaults of the configuration block (spec/06 section 6.4, spec/10 section 10.2.3). -/
def DefaultConfig (c : ConfigBlock) : Prop :=
  c.params.toList = [0x0A, 0x03, 0x1E, 0x0A, 0x28, 0x14, 0x0A, 0x00] ∧ (∀ b, b ∈ c.homeSet.toList → b = 0) ∧
    ∀ b, b ∈ c.windows.toList → b = 0

/-- Every block holds its values of pin reset and RESTART (R2, R11, R39, R69, R91, R110, R139, R153, R157, R175). -/
structure BlocksCleared (s : State) : Prop where
  /-- R2, as it stands when the clearing ends. -/
  image : ∀ a, imageRead s.image a = 0
  /-- R11, R71. -/
  dir : ∀ r, s.entry r = ⟨none, .orphan, .stale, 0, false, .stopped, 0, false, .idle⟩
  /-- R39. -/
  pub : (∀ r, s.pubEntry r = none) ∧ s.pub.pointer = 127 ∧ s.pub.refresh = .stopped ∧ s.pub.scan = .stopped
  /-- R69. -/
  claims : (∀ r, s.record r = none ∧ s.serving r = ⟨.idle, false, .stopped⟩) ∧ s.claims.table = []
  /-- R91. -/
  roster : ∀ p, s.peer p = ⟨.absent, 0, 0, 0, 0, 0, .active, .stopped, 0, false⟩
  /-- R110. -/
  ctl : s.ctl.listen = .stopped ∧ s.ctl.leave = .stopped ∧ s.ctl.presence = .stopped ∧ s.ctl.presenceDue = false ∧
    s.ctl.backlog = []
  /-- R139. -/
  parked : s.parked = []
  /-- R153, R157. -/
  cmd : s.cmd.notices = [] ∧ s.cmd.overflow = 0 ∧ s.cmd.number = 0 ∧ s.cmd.flags = 0 ∧ s.cmd.mask = 0 ∧ s.interrupt = false
  /-- R175. -/
  line : s.line.queue = [] ∧ s.line.marks = [] ∧ s.line.flight = none ∧ s.line.rotation = 0 ∧ s.line.controlRun = 0 ∧
    s.line.consecutive = 0 ∧ s.line.received = 0 ∧ s.line.checkErrors = 0 ∧ s.line.collisions = 0 ∧ s.line.drops = 0 ∧
    s.line.suppressed = 0

/-- Item i of the JOIN check fails, by the tables of R112 and spec/06 section 6.4. -/
def ItemFails (ownId : Station) (c : ConfigBlock) (i : Nat) : Prop :=
  (i = 0 ∧ ownId = 0) ∨
  (i = 1 ∧ c.param 0 < 2) ∨
  (i = 2 ∧ (c.param 1 % 16 < 2 ∨ 7 < c.param 1 % 16)) ∨
  (i = 3 ∧ c.param 2 < 5) ∨
  (i = 4 ∧ c.param 3 < 1) ∨
  (i = 5 ∧ c.param 4 < 10) ∨
  ∃ w : Fin 8, i = 8 + w.val ∧ (c.window w).enabled = true ∧
    ((c.window w).size = 0 ∨ 128 < (c.window w).imageStart + (c.window w).size ∨ 256 < (c.window w).hostBase + (c.window w).size)

/-- The host port after an access answered so. -/
def answered (ok : Bool) (data : HostWord) (p : Port) : Port := { p with answer := some { ok := ok, data := data } }

/-- The mailbox after a command taken outside RESET (R142). -/
def mailed (x : Result) (code : Byte) (arg : Option Byte) (c : CommandUnit) : CommandUnit :=
  { c with command := code, argument := arg.getD c.argument, result := x, commandDone := true }

/-- What a command that is refused outside RESET leaves: the mailbox and the answer, and nothing else changed (R142). -/
def commandAnswered (x : Result) (code : Byte) (arg : Option Byte) (s : State) : State :=
  { s with port := answered true 0 s.port, cmd := mailed x code arg s.cmd }

/-- The argument a command is taken with (R142, R179). -/
def commandArgument (arg : Option Byte) (s : State) : Byte := arg.getD s.cmd.argument

/-- The records that notices placed in one act make: one stamp, consecutive numbers (R150). -/
def noticeRecords (ticks number : Half) (ns : List Notice) : List NoticeRecord :=
  ns.mapIdx fun i n => { notice := n, stamp := ticks, number := number + BitVec.ofNat 16 i }

/-- The unit after notices are placed in this order: numbered, stamped, appended while the queue has room, and else dropped and
counted (R150, R151). -/
def noticed (ns : List Notice) (ticks : Half) (c : CommandUnit) : CommandUnit :=
  let room := 32 - c.notices.length
  { c with
    number := c.number + BitVec.ofNat 16 ns.length
    notices := c.notices ++ (noticeRecords ticks c.number ns).take room
    overflow := if ns.length ≤ room then c.overflow else min 65535 (c.overflow + (ns.length - room))
    overflowFlag := c.overflowFlag || decide (room < ns.length) }

/-- The unit after a transition other than the entry to RESET (R106). -/
def transited (m : Mode) (why : Cause) (ticks : Half) (c : CommandUnit) : CommandUnit :=
  { noticed [.state m why] ticks c with stateChange := true }

/-- The Line Unit after a frame that a record, a region or the JOIN needs was handed to it: appended where there was room, and
else marked to send (R166, R167). -/
def handLine (m : Mark) (l : LineUnit) : LineUnit :=
  if l.queue.length < 16 then { l with queue := l.queue ++ [{ frame := m.frame, fallen := false }] }
  else { l with marks := l.marks ++ [m] }

/-- The Line Unit after a WAIT, REFUSE or REPAIR was handed to it: appended where there was room, and else suppressed and counted
(R168). -/
def answerLine (q : QFrame) (l : LineUnit) : LineUnit :=
  if l.queue.length < 16 then { l with queue := l.queue ++ [{ frame := q, fallen := false }] }
  else { l with suppressed := min 65535 (l.suppressed + 1) }

/-- A REFUSE handed over for each of several claimants, in order. -/
def refuseLine (r : Region) (why : RefuseReason) (believed : Option Station) (ps : List Station) (l : LineUnit) : LineUnit :=
  ps.foldl (fun l p => answerLine (.refuse r p why believed) l) l

/-- The Line Unit after the frames of a test no longer stand: they are discarded when their turn comes. -/
def fellLine (p : QFrame → Bool) (l : LineUnit) : LineUnit :=
  { l with
    queue := l.queue.map fun e => { e with fallen := e.fallen || p e.frame }
    flight := l.flight.map fun f =>
      { f with fallen := f.fallen || match f.job with
                 | .control q => p q
                 | .presence | .update _ => false } }

/-- The Line Unit after the record of a region ended: a CLAIM of it no longer stands and its marks left the order (R43, R167). -/
def endedLine (r : Region) (l : LineUnit) : LineUnit :=
  { fellLine (fun q => q == .claim r) l with marks := l.marks.filter fun m => !Mark.ofRecord r m }

/-- The Line Unit after a record needs a CLAIM: a pending one serves, and else one is handed over (R43). -/
def claimLine (r : Region) (s : State) : LineUnit := if s.claimPending r then s.line else handLine (.claim r) s.line

/-- The Line Unit after an ORPHAN record deferred or was answered: its CLAIM mark is cleared, and its CLAIM in flight, once captured, no
longer stands (R76, R77, R84). -/
def unaskedLine (r : Region) (l : LineUnit) : LineUnit :=
  { l with
    marks := l.marks.filter fun m => m != .claim r
    flight := l.flight.map fun f => { f with fallen := f.fallen || (f.job == .control (.claim r) && f.frame.isSome) } }

/-- A record as a request creates it (R42). -/
def freshRecord (origin : Origin) (kind : ClaimKind) : ClaimRecord :=
  { origin := origin, kind := kind, state := .asking, attempts := 0, answer := .stopped, patience := .stopped,
    orphanWait := .stopped, deferredTo := none, queuedAt := none }

/-- A claim may be requested: no live record, and a slot free or a closing record for the region (R42). -/
def Claimable (s : State) (r : Region) : Prop :=
  (s.entry r).role.owns = false ∧ s.liveRecord r = none ∧ (s.recordCount < 8 ∨ s.closing r = true)

/-- The state after a claim request was taken: NORMAL for a PEER region, ORPHAN for an orphan; a closing record gives way (R42). -/
def claimed (r : Region) (origin : Origin) (s : State) : State :=
  let c := freshRecord origin (if (s.entry r).role = .orphan then .orphan else .normal)
  { s with
    claims := { s.claims with records := put s.claims.records r (some c) }
    line := handLine (.claim r) (endedLine r s.line) }

/-- A record become an ORPHAN claim, as at exhaustion (R44, R75). -/
def orphanClaim (c : ClaimRecord) : ClaimRecord :=
  { c with kind := .orphan, state := .asking, attempts := 0, answer := .stopped, patience := .stopped, queuedAt := none }

/-- A record converted toward the region's new owner (R78). -/
def normalClaim (c : ClaimRecord) : ClaimRecord :=
  { c with kind := .normal, state := .asking, attempts := 0, orphanWait := .stopped, deferredTo := none }

/-- The notices of a record's failure (R53, R136). -/
def failNotices (r : Region) (why : FailReason) (s : State) : List Notice :=
  match s.liveRecord r with
  | some c =>
    .claimFailed r (s.entry r).owner why c.origin ::
      (if s.parkedFor r = [] then [] else [.writesLost r why (s.parkedFor r).length])
  | none => []

/-- An owner may hold an entry that a failure's WITHDRAW is to end (R53). -/
def Withdraws (why : FailReason) (c : ClaimRecord) : Prop :=
  (c.state = .asked ∨ c.state = .queued) ∧ (why = .noAnswer ∨ why = .patience ∨ why = .withdrawn ∨ why = .leave)

/-- The state `t` after the record `c` of the region failed in `s` (R53, R54, R136): the notices, the parked writes discarded, and
the record freed, with a WITHDRAW handed over where an owner may hold an entry; with no room for it the record is closing. -/
structure Failed (r : Region) (why : FailReason) (c : ClaimRecord) (s t : State) : Prop where
  /-- The notices, in order. -/
  cmd : t.cmd = noticed (failNotices r why s) s.ctl.ticks s.cmd
  /-- The region's parked writes are discarded, the others keep their order. -/
  parked : t.parked = s.parked.filter fun w => w.region != r
  /-- The record is freed with no frame. -/
  freed : ¬Withdraws why c → t.record r = none ∧ t.line = endedLine r s.line
  /-- The record is freed with its WITHDRAW queued. -/
  withdrawn : Withdraws why c → s.line.queue.length < 16 →
    t.record r = none ∧ t.line = handLine (.withdraw r (why == .leave)) (endedLine r s.line)
  /-- The record is closing, its timers stopped. -/
  closing : Withdraws why c → 16 ≤ s.line.queue.length →
    t.record r = some { c with answer := .stopped, patience := .stopped, orphanWait := .stopped } ∧ t.closing r = true ∧
      t.line = handLine (.withdraw r (why == .leave)) (endedLine r s.line)
  /-- Every other record is as before. -/
  others : ∀ q, q ≠ r → t.record q = s.record q
  /-- Nothing else changed. -/
  frame : { t with cmd := s.cmd, parked := s.parked, line := s.line,
                   claims := { t.claims with records := s.claims.records } } = s

/-- A span addition at an entry of the publish set (R23). -/
def spanAddition (a b : Offset) (e : Option PubEntry) : Option PubEntry :=
  match e with
  | none => some { low := a, high := b, full := false }
  | some e => some { low := min e.low a, high := max e.high b, full := e.full }

/-- A full addition at an entry of the publish set (R23). -/
def fullAddition (e : Option PubEntry) : Option PubEntry :=
  match e with
  | none => some { low := 0, high := 127, full := true }
  | some e => some { low := e.low, high := e.high, full := true }

/-- The Publication Unit after a full addition for the region, which is made where its role is OWNER (R23). -/
def fullyAdded (r : Region) (s : State) : Publication :=
  if (s.entry r).role = .owner then { s.pub with set := put s.pub.set r (fullAddition (s.pubEntry r)) } else s.pub

/-- A timer after one tick (R107). -/
def counted : Timer → Timer
  | .stopped => .stopped
  | .running n => .running (n - 1)

/-- The state after commands are taken one after another, where none of them stops. -/
def after : List Instr → State → Option State
  | [], s => some s
  | c :: cs, s =>
    match exec c s with
    | .next t => after cs t
    | .fault _ | .refused _ => none

/-- A window covers a host unit (R127). -/
def Covers (w : Window) (u : Nat) : Prop :=
  w.enabled = true ∧ 1 ≤ w.size ∧ w.hostBase ≤ u ∧ u < w.hostBase + w.size ∧ w.imageStart + (u - w.hostBase) ≤ 127

/-- The commands of the mailbox, with their codes and the argument byte that their access covers (spec/10 section 10.2.2). -/
inductive Mailed : Instr → Byte → Option Byte → Prop
  | join (arg : Option Byte) : Mailed (.joinCommand arg) 0x01 arg
  | leave (arg : Option Byte) : Mailed (.leaveCommand arg) 0x02 arg
  | restart (arg : Option Byte) (straps : Station) : Mailed (.restartCommand arg straps) 0x03 arg
  | claim (arg : Option Byte) : Mailed (.claimCommand arg) 0x10 arg
  | withdraw (arg : Option Byte) : Mailed (.withdrawCommand arg) 0x11 arg
  | release (arg : Option Byte) : Mailed (.releaseCommand arg) 0x12 arg
  | hold (arg : Option Byte) : Mailed (.holdCommand arg) 0x13 arg
  | unhold (arg : Option Byte) : Mailed (.unholdCommand arg) 0x14 arg
  | refresh (arg : Option Byte) : Mailed (.refreshCommand arg) 0x15 arg
  | unknown (arg : Option Byte) (code : Byte) (h : code ∉ commandCodes) : Mailed (.unknownCommand arg code) code arg

/-- The publish offer: the next region of the set in rotating order, in ACTIVE and LEAVING (R26). -/
def Offered (s : State) (r : Region) : Prop :=
  (s.ctl.mode = .active ∨ s.ctl.mode = .leaving) ∧ (s.pubEntry r).isSome = true ∧
    ((s.pub.pointer < r ∧ ∀ q, s.pub.pointer < q → q < r → s.pubEntry q = none) ∨
      ((∀ q, s.pub.pointer < q → s.pubEntry q = none) ∧ ∀ q, q < r → s.pubEntry q = none))

/-- The length in us of the deferral wait of an attempt, numbered from 1 (R160). -/
def waitLength (ownId : Station) (rotation : BitVec 5) (attempt : Nat) (update : Bool) : Nat :=
  4 + 3 * ((((ownId.val : Int) - rotation.toNat + 7 * ((attempt - 1 : Nat) : Int)) % 32).toNat + if update then 32 else 0)

/-- The frame in flight is an UPDATE; every other is control-class (R160). -/
def isUpdate : Job → Bool
  | .update _ => true
  | .presence | .control _ => false

/-- A frame as it enters flight on an idle line: its first deferral wait begins (R160, R169). -/
def entering (job : Job) (frame : Option Frame) (fallen : Bool) (s : State) : Flight :=
  { job := job, attempt := 1, frame := frame, fallen := fallen
    wait := some (waitLength s.ctl.ownId s.line.rotation 1 (isUpdate job)), transmitting := false, staleAtTake := false }

/-- The Line Unit after the oldest mark's frame was let into the queue (R167). -/
def admitted (l : LineUnit) : LineUnit :=
  match l.marks with
  | [] => l
  | m :: ms => { l with queue := l.queue ++ [{ frame := m.frame, fallen := false }], marks := ms }

/-- The Line Unit once the attempt of a frame has started (R161): no burst has been heard yet, and carrier is as it was told. -/
def started (f : Flight) (x : Frame) (l : LineUnit) : LineUnit :=
  { l with burst := .unknown, flight := some { f with frame := some x, wait := none, transmitting := true } }

/-- The Line Unit after the frame in flight was discarded or withdrawn: no statistic and no count changes (R163, R164). -/
def unflown (l : LineUnit) : LineUnit := { l with flight := none }

/-- The Line Unit after the frame in flight was carried (R159, R162): the echo was carrier and a good burst. -/
def carriedLine (s : State) : LineUnit :=
  { s.line with flight := none, consecutive := 0, carrier := true, burst := .good (BitVec.ofNat 8 s.ctl.ownId.val) }

/-- The state after steps 1 to 3 of R162 at the drop of a frame, whose last burst was a collision. -/
def droppedState (f : Flight) (s : State) : State :=
  { s with
    cmd := { noticed [.frameDropped f.job.kind f.job.region] s.ctl.ticks s.cmd with lineFlag := true }
    line := { s.line with
      flight := none, collisions := min 65535 (s.line.collisions + 1), drops := min 65535 (s.line.drops + 1)
      consecutive := min 4 (s.line.consecutive + 1), burst := .bad } }

/-- The header of a frame of this station: region byte 0xFF where the kind carries none (spec/10 section 10.1.1). -/
def ownHeader (s : State) (r : Option Region) (seq : Half) : Header :=
  { major := 2, source := BitVec.ofNat 8 s.ctl.ownId.val
    region := match r with
      | some r => BitVec.ofNat 8 r.val
      | none => 0xFF
    seq := seq }

/-- The profile that this station announces (R114, R115). -/
def ownProfile (s : State) : Profile :=
  { minor := 1, presence := pick s.ctl.config.params 0, refresh := pick s.ctl.config.params 6
    homeCount := BitVec.ofNat 8 (allRegions.filter fun r => s.ctl.config.inHomeSet r).length }

/-- The 128 bytes of a region, by offset (R1). -/
def contentOf (s : State) (r : Region) : Vector Byte 128 := Vector.ofFn fun o => imageRead s.image (128 * r.val + o.val)

/-- A frame of a record, a region or the JOIN handed over; after the LEAVE frame is queued it is discarded (R119). -/
def handed (m : Mark) (s : State) : LineUnit := if s.ctl.leaveQueued then s.line else handLine m s.line

/-- A WAIT, REFUSE or REPAIR handed over; after the LEAVE frame is queued it is discarded (R119). -/
def replied (q : QFrame) (s : State) : LineUnit := if s.ctl.leaveQueued then s.line else answerLine q s.line

/-- A REFUSE handed over for each of several claimants; after the LEAVE frame is queued they are discarded (R119). -/
def refused (r : Region) (why : RefuseReason) (believed : Option Station) (ps : List Station) (s : State) : LineUnit :=
  if s.ctl.leaveQueued then s.line else refuseLine r why believed ps s.line

/-- A CLAIM that a record needs; after the LEAVE frame is queued it is discarded (R43, R119). -/
def wanted (r : Region) (s : State) : LineUnit := if s.ctl.leaveQueued then s.line else claimLine r s

/-- A WITHDRAW that is sent only where the queue has room (R43, R46). -/
def withdrawnLine (r : Region) (s : State) : LineUnit :=
  if s.ctl.leaveQueued = false ∧ s.line.queue.length < 16 then
    { s.line with queue := s.line.queue ++ [{ frame := .withdraw r false, fallen := false }] }
  else s.line

/-- A full addition asked for a region; from the LEAVE frame to the next ACTIVE none is made (R23, R37). -/
def added (r : Region) (s : State) : Publication := if s.pub.barred then s.pub else fullyAdded r s

/-- The Publication Unit after a full addition for every OWNER region (R31, R32). -/
def addedAll (s : State) : Publication :=
  if s.pub.barred then s.pub
  else
    { s.pub with
      set := Vector.ofFn fun r => if (s.entry r).role = .owner then fullAddition (s.pubEntry r) else s.pubEntry r }

/-- A record changed, the others as before. -/
def recorded (r : Region) (c : ClaimRecord) (s : State) : ClaimEngine :=
  { s.claims with records := put s.claims.records r (some c) }

/-- The image byte at x after parked writes were applied over b in arrival order (R135). -/
def parkedByte (ws : List ParkedWrite) (x : Nat) (b : Byte) : Byte :=
  ws.foldl (fun b w =>
    if x / 4 = 32 * w.region.val + w.offset.val / 4 ∧ w.lanes.getLsbD (x % 4) then laneByte w.data (x % 4) else b) b

/-- An offset that a parked write enables. -/
def Enables (w : ParkedWrite) (o : Nat) : Prop := ∃ k : Fin 4, w.lanes.getLsbD k.val = true ∧ o = 4 * (w.offset.val / 4) + k.val

/-- The state `t` after the parked writes of a region were applied to `s` (R135): the bytes, one span addition from the lowest to
the highest enabled offset, and the entries gone from the buffer. -/
structure Applied (r : Region) (s t : State) : Prop where
  /-- The bytes of the image. -/
  bytes : ∀ x, imageRead t.image x = parkedByte (s.parkedFor r) x (imageRead s.image x)
  /-- The other entries keep their order. -/
  parked : t.parked = s.parked.filter fun w => w.region != r
  /-- Without an entry, or where no addition is made, nothing is added. -/
  none : s.parkedFor r = [] ∨ (s.entry r).role ≠ .owner ∨ s.pub.barred = true → t.pub = s.pub
  /-- One span addition, where additions are made. -/
  span : ∀ w, w ∈ s.parkedFor r → (s.entry r).role = .owner → s.pub.barred = false → ∃ a b : Offset,
    (∃ v, v ∈ s.parkedFor r ∧ Enables v a.val) ∧ (∃ v, v ∈ s.parkedFor r ∧ Enables v b.val) ∧
    (∀ v o, v ∈ s.parkedFor r → Enables v o → a.val ≤ o ∧ o ≤ b.val) ∧
    t.pub = { s.pub with set := put s.pub.set r (spanAddition a b (s.pubEntry r)) }
  /-- Nothing else changed. -/
  frame : { t with image := s.image, parked := s.parked, pub := s.pub } = s

/-- The serving condition of R62 in ACTIVE, and of R63 in LEAVING. -/
abbrev Servable (s : State) (r : Region) : Prop :=
  (s.entry r).role = .owner ∧ s.claimants r ≠ [] ∧ (s.serving r).handover = .idle ∧ (s.entry r).release = .idle ∧
    ((s.ctl.mode = .active ∧ ((s.serving r).forced = true ∨ ((s.entry r).held = false ∧ (s.entry r).tenure = .stopped))) ∨
      (s.ctl.mode = .leaving ∧ s.ctl.leaveQueued = false))

/-- In LEAVING the region is to be released: R71 takes the request of R118. -/
abbrev Releasable (s : State) (r : Region) : Prop :=
  s.ctl.mode = .leaving ∧ s.ctl.leaveQueued = false ∧ (s.entry r).role = .owner ∧ s.claimants r = [] ∧
    (s.serving r).handover = .idle ∧ (s.entry r).release = .idle

/-- The Line Unit after a frame was handed over for each of several regions, in order. -/
def handAll (m : Region → Mark) (rs : List Region) (l : LineUnit) : LineUnit := rs.foldl (fun l r => handLine (m r) l) l

/-- The Line Unit after the live record of a region failed with LEAVE: its frames ended, and a WITHDRAW was handed over where an owner
may hold an entry (R53, R54). -/
def failedLine (s : State) (r : Region) (l : LineUnit) : LineUnit :=
  match s.liveRecord r with
  | some c => if c.state = .asked ∨ c.state = .queued then handLine (.withdraw r true) (endedLine r l) else endedLine r l
  | none => l

/-- The record of a region after its live record failed with LEAVE: freed, or closing where its WITHDRAW found no room (R53, R54). -/
def failedRecord (s : State) (l : LineUnit) (r : Region) : Option ClaimRecord :=
  match s.liveRecord r with
  | some c =>
    if l.marks.contains (.withdraw r true) then some { c with answer := .stopped, patience := .stopped, orphanWait := .stopped }
    else none
  | none => s.record r

/-- The leaving work is done (R118). -/
def WorkDone (s : State) : Prop :=
  (∀ r, (s.entry r).role.owns = false) ∧ (∀ e, e ∈ s.line.queue → e.frame.leavingWork = false) ∧
    ∀ m, m ∈ s.line.marks → m.frame.leavingWork = false

/-- The notices of an entry to ISOLATED or OFFLINE, in the order of R123: the regions are given up before the claims fail. -/
def downNotices (m : Mode) (why : Cause) (lost : LostDetail) (s : State) : List Notice :=
  let given : State := { s with dir := s.dir.map fun e => if e.role.owns then { e with owner := none } else e }
  .state m why :: ((allRegions.filter fun r => (s.entry r).role.owns).map fun r => .regionLost r none lost) ++
    allRegions.flatMap fun r => failNotices r .isolated given

/-- The state `t` after the entry to ISOLATED or OFFLINE from `s` (R38, R69, R104, R123, R175). -/
structure WentDown (m : Mode) (why : Cause) (lost : LostDetail) (s t : State) : Prop where
  /-- The transition and what it stops. -/
  ctl : t.ctl = { s.ctl with mode := m, cause := why, listen := .stopped, leave := .stopped, presence := .stopped
                             presenceDue := false, backlog := [], leaveQueued := false }
  /-- The notices, and STATE_CHANGE. -/
  cmd : t.cmd = { noticed (downNotices m why lost s) s.ctl.ticks s.cmd with stateChange := true }
  /-- A region that was owned is an orphan; its content and its replica field are kept. -/
  owned : ∀ r, (s.entry r).role.owns = true →
    t.entry r = { s.entry r with owner := none, role := .orphan, held := false, tenure := .stopped, release := .idle }
  /-- Every other region is as before. -/
  others : ∀ r, (s.entry r).role.owns = false → t.entry r = { s.entry r with release := .idle }
  /-- The publish set is emptied with its timers stopped; a bar on additions stands. -/
  pub : (∀ r, t.pubEntry r = none) ∧ t.pub.pointer = s.pub.pointer ∧ t.pub.refresh = .stopped ∧ t.pub.scan = .stopped ∧
    t.pub.barred = s.pub.barred
  /-- The Claim Engine is emptied. -/
  claims : (∀ r, t.record r = none ∧ t.serving r = ⟨.idle, false, .stopped⟩) ∧ t.claims.table = []
  /-- The roster is kept, its timers stopped. -/
  roster : ∀ p, t.peer p = { s.peer p with silence := .stopped }
  /-- The parked writes of the claims that failed are discarded. -/
  parked : t.parked = s.parked.filter fun w => (s.liveRecord w.region).isNone
  /-- Nothing is left to send. -/
  line : t.line = { s.line with queue := [], marks := [], flight := none, controlRun := 0 }
  /-- The image, the host port and the waiting commands are as before. -/
  frame : t.image = s.image ∧ t.port = s.port ∧ t.pending = s.pending

/-- The burst is recorded and the frame counted good (R173, R174). -/
def burstLine (source : Byte) (l : LineUnit) : LineUnit := { l with burst := .good source, received := min 65535 (l.received + 1) }

/-- The silence limit of a PRESENT entry in ms, by its captured period, and of any other by the station's own (R98). -/
def limitOf (s : State) (e : RosterEntry) : Nat :=
  if e.state = .present then (s.ctl.config.param 1 % 16) * (10 * (if e.presence.toNat < 2 then 2 else e.presence.toNat))
  else (s.ctl.config.param 1 % 16) * (10 * s.ctl.config.param 0)

/-- A roster entry heard again (R95, R96, R97). -/
def heardEntry (s : State) (e : RosterEntry) : RosterEntry :=
  { e with silence := .running (limitOf s e), heard := min 65535 (e.heard + 1) }

/-- The state after receive dispatch counted a frame of a kind other than PRESENCE, JOIN and LEAVE, and the roster took it (R92,
R96). -/
def heardFrom (h : Header) (p : Station) (s : State) : State :=
  { s with
    line := burstLine h.source s.line
    roster := if (s.peer p).state = .present then put s.roster p (heardEntry s (s.peer p)) else s.roster }

/-- A frame of a kind other than PRESENCE, JOIN and LEAVE, with its header. -/
inductive Carries : Instr → Header → Prop
  | unknown (code : BitVec 4) (h : Header) (hc : noKindCode code = true) : Carries (.unknownKindFrame code h) h
  | claim (h : Header) : Carries (.claimReceived h) h
  | wait (h : Header) (a b : Byte) : Carries (.waitReceived h a b) h
  | refuse (h : Header) (a b c : Byte) : Carries (.refuseReceived h a b c) h
  | withdraw (h : Header) : Carries (.withdrawReceived h) h
  | handover (h : Header) (a b : Byte) (ids : Vector Byte 3) (content : Vector Byte 128) :
      Carries (.handoverReceived h a b ids content) h
  | take (h : Header) (content : Vector Byte 128) : Carries (.takeReceived h content) h
  | release (h : Header) : Carries (.releaseReceived h) h
  | update (h : Header) (a b : Byte) (data : List Byte) (hw : (Instr.updateReceived h a b data).wellFormed = true) :
      Carries (.updateReceived h a b data) h
  | repair (h : Header) : Carries (.repairReceived h) h

/-- A frame of any kind, with its header. -/
inductive Framed : Instr → Header → Prop
  | presence (h : Header) (profile : Profile) (st : Byte) (owned : BitVec 128) : Framed (.presenceReceived h profile st owned) h
  | join (h : Header) (profile : Profile) : Framed (.joinReceived h profile) h
  | leave (h : Header) : Framed (.leaveReceived h) h
  | other (c : Instr) (h : Header) (hc : Carries c h) : Framed c h

/-- A roster entry created PRESENT from a frame's profile (R93, R178). -/
def newPeer (s : State) (profile : Profile) (a : Announced) : RosterEntry :=
  { state := .present, major := 2, minor := profile.minor.setWidth 4, presence := profile.presence, refresh := profile.refresh
    homeCount := min profile.homeCount.toNat 128, announced := a
    silence := .running ((s.ctl.config.param 1 % 16) * (10 * max 2 profile.presence.toNat)), heard := 1, mismatch := false }

/-- A roster entry created INCOMPATIBLE (R94). -/
def foreignPeer (s : State) (major : BitVec 4) : RosterEntry :=
  { state := .incompatible, major := major, minor := 0, presence := 0, refresh := 0, homeCount := 0, announced := .active
    silence := .running ((s.ctl.config.param 1 % 16) * (10 * s.ctl.config.param 0)), heard := 1, mismatch := false }

/-- The fields of an announcement that differ from the captured profile, in the order of R95. -/
def differing (e : RosterEntry) (major : BitVec 4) (profile : Profile) : List ProfileField :=
  if major = 2 then
    (if e.major ≠ 2 ∨ e.minor ≠ profile.minor.setWidth 4 then [.revision] else []) ++
    (if e.presence ≠ profile.presence then [.presencePeriod] else []) ++
    (if e.refresh ≠ profile.refresh then [.refreshPeriod] else []) ++
    (if e.homeCount ≠ min profile.homeCount.toNat 128 then [.homeCount] else [])
  else [.revision]

/-- The entry of a peer and the notices after an announcement, by the table of R92: R93, R94, R95, R97. -/
def announced (s : State) (p : Station) (major : BitVec 4) (profile : Profile) (a : Announced) (byJoin : Bool) :
    RosterEntry × List Notice :=
  let e := s.peer p
  match e.state with
  | .absent =>
    if major = 2 then (newPeer s profile a, [.peerJoined p byJoin]) else (foreignPeer s major, [.peerIncompatible p major])
  | .present =>
    let d : RosterEntry := { heardEntry s e with announced := if major = 2 then a else e.announced }
    match differing e major profile, e.mismatch with
    | f :: _, false => ({ d with mismatch := true }, [.profileMismatch p f])
    | _, _ => (d, [])
  | .incompatible => if byJoin then (e, []) else (heardEntry s e, [])

/-- The state after receive dispatch counted an announcement and the roster took it. -/
def announcedBy (h : Header) (p : Station) (profile : Profile) (a : Announced) (byJoin : Bool) (s : State) : State :=
  { s with
    line := burstLine h.source s.line
    roster := put s.roster p (announced s p h.major profile a byJoin).1
    cmd := noticed (announced s p h.major profile a byJoin).2 s.ctl.ticks s.cmd }

/-- The entry of a region that became an orphan: its content, replica field and last sequence are kept (R74). -/
def orphanEntry (e : DirEntry) : DirEntry := { e with owner := none, role := .orphan, held := false, tenure := .stopped }

/-- The entry of a region whose replica became STALE (R5). -/
def staleEntry (e : DirEntry) : DirEntry :=
  if e.replica = .valid then { e with replica := .stale, staleAge := 0 } else e

/-- The record of a claim after the loss of a peer `p`, whose region's owner was `owner` (R75). -/
def afterLoss (p : Station) (owner : Option Station) (c : ClaimRecord) : ClaimRecord :=
  if owner = some p ∧ c.kind = .normal then orphanClaim c
  else if c.kind = .orphan ∧ c.state = .deferred ∧ c.deferredTo = some p then
    { c with state := .asking, orphanWait := .stopped, deferredTo := none, attempts := 0 }
  else c

/-- A NORMAL record whose region is lost goes on as an ORPHAN claim: the record and its CLAIM (R44, R75). -/
def orphanedClaim (r : Region) (s : State) : State :=
  match s.liveRecord r with
  | some c =>
    if c.kind = .normal then { s with claims := recorded r (orphanClaim c) s, line := wanted r s } else s
  | none => s

/-- An ORPHAN record of a region that has become PEER goes on as a NORMAL claim (R78). -/
def normalizedClaim (r : Region) (s : State) : State :=
  match s.liveRecord r with
  | some c =>
    if c.kind = .orphan then
      let u : State := { s with line := { s.line with marks := s.line.marks.filter fun m => m != .take r } }
      { u with claims := recorded r (normalClaim c) s, line := wanted r u }
    else s
  | none => s

/-- The entry of a region that was yielded to a rival (R88). -/
def yieldedEntry (rival : Station) (seq : Half) (e : DirEntry) : DirEntry :=
  { e with owner := some rival, role := .peer, replica := .stale, staleAge := 0, lastSeq := seq, held := false
           tenure := .stopped, release := .idle }

/-- The station yields a region (R88, R89). -/
def yielded (r : Region) (rival : Station) (seq : Half) (s : State) : State :=
  let ofRegion (q : QFrame) : Bool := q == .handover r || q == .release r
  let l := fellLine ofRegion s.line
  let l := { l with
    marks := l.marks.filter fun m => m != .handover r && m != .release r
    flight := l.flight.map fun f => { f with fallen := f.fallen || f.job == .update r } }
  { s with
    dir := put s.dir r (yieldedEntry rival seq (s.entry r))
    pub := { s.pub with set := put s.pub.set r none }
    claims := { s.claims with
      serve := put s.claims.serve r { s.serving r with handover := .idle, forced := false }
      table := s.claims.table.filter fun e => e.region != r }
    line := refused r .notOwner (some rival) (s.claimants r) { s with line := l }
    cmd := noticed [.conflict r rival false, .regionStale r (some rival) .conflict] s.ctl.ticks s.cmd }

/-- The Line Unit after the claim for a region of the lost peer went on as an ORPHAN claim (R75). -/
def lostLine (p : Station) (s : State) (r : Region) (l : LineUnit) : LineUnit :=
  if (s.entry r).owner = some p then (orphanedClaim r { s with line := l }).line else l

/-- The Line Unit after a record deferred to the lost peer asks again (R75). -/
def askedLine (p : Station) (s : State) (r : Region) (l : LineUnit) : LineUnit :=
  match s.liveRecord r with
  | some c =>
    if c.kind = .orphan ∧ c.state = .deferred ∧ c.deferredTo = some p then wanted r { s with line := l } else l
  | none => l

/-- The state `t` after the loss of a peer was reported in `s` (R60, R74, R75, R101). -/
structure Lost (p : Station) (s t : State) : Prop where
  /-- Its regions are orphans. -/
  entries : ∀ r, t.entry r = if (s.entry r).owner = some p then orphanEntry (s.entry r) else s.entry r
  /-- The live records of its regions are ORPHAN claims, and those deferred to it ask again. -/
  live : ∀ r c, s.liveRecord r = some c → t.record r = some (afterLoss p (s.entry r).owner c)
  /-- A CLAIM is pending for each record that changed. -/
  pending : ∀ r c, s.liveRecord r = some c → afterLoss p (s.entry r).owner c ≠ c → s.ctl.leaveQueued = false →
    t.claimPending r = true
  /-- Other records are as before. -/
  others : ∀ r, s.liveRecord r = none → t.record r = s.record r
  /-- It waits nowhere. -/
  table : t.claims.table = s.claims.table.filter fun e => e.claimant != p
  /-- The CLAIMs of the records that changed, in the order of log 12. -/
  line : t.line = allRegions.foldl (fun l r => askedLine p s r l) (allRegions.foldl (fun l r => lostLine p s r l) s.line)
  /-- Nothing else changed. -/
  frame : { t with dir := s.dir, line := s.line
                   claims := { t.claims with records := s.claims.records, table := s.claims.table } } = s

/-- The entry of a region after the owned list of a PRESENCE of `p` was taken at a station of this ID (R85, R86, R87, R88). -/
def reconciled (own p : Station) (listed : Bool) (e : DirEntry) : DirEntry :=
  if listed then
    if e.role.owns then (if own < p then e else yieldedEntry p e.lastSeq e)
    else if e.owner = some p then e
    else { staleEntry e with owner := some p, role := .peer }
  else if e.owner = some p then orphanEntry e
  else e

/-- The notices that the region gives then (R85, R87, R89). -/
def reconcileNotices (own p : Station) (listed : Bool) (r : Region) (e : DirEntry) : List Notice :=
  if listed then
    if e.role.owns then
      (if own < p then [.conflict r p true] else [.conflict r p false, .regionStale r (some p) .conflict])
    else if e.owner = some p ∨ e.replica = .stale then []
    else [.regionStale r (some p) .reconcile]
  else []

/-- The live record of the region then (R75, R78, R85, R86). -/
def reconciledClaim (p : Station) (listed : Bool) (e : DirEntry) (c : ClaimRecord) : ClaimRecord :=
  if listed then
    if e.role.owns = false ∧ e.owner ≠ some p ∧ c.kind = .orphan then normalClaim c else c
  else if e.owner = some p ∧ c.kind = .normal then orphanClaim c
  else c

/-- The Line Unit after the region was taken: the frames of a region yielded fall and its claimants draw a REFUSE, and a claim that
changes goes on with its CLAIM (R75, R78, R85, R86, R88, R89). -/
def reconciledLine (p : Station) (listed : Bool) (s : State) (r : Region) (l : LineUnit) : LineUnit :=
  let v : State := { s with line := l }
  if listed then
    if (s.entry r).role.owns then (if s.ctl.ownId < p then l else (yielded r p (s.entry r).lastSeq v).line)
    else if (s.entry r).owner = some p then l
    else (normalizedClaim r v).line
  else if (s.entry r).owner = some p then (orphanedClaim r v).line
  else l

/-- The state `t` after the owned list of a PRESENCE of `p` was taken in `s` (R85 to R89). -/
structure Reconciled (p : Station) (owned : BitVec 128) (s t : State) : Prop where
  /-- The directory. -/
  entries : ∀ r : Region, t.entry r = reconciled s.ctl.ownId p (owned.getLsbD r.val) (s.entry r)
  /-- The notices, in ascending region order. -/
  cmd : t.cmd = noticed (allRegions.flatMap fun r : Region =>
    reconcileNotices s.ctl.ownId p (owned.getLsbD r.val) r (s.entry r)) s.ctl.ticks s.cmd
  /-- The live records. -/
  live : ∀ (r : Region) c, s.liveRecord r = some c →
    t.record r = some (reconciledClaim p (owned.getLsbD r.val) (s.entry r) c)
  /-- Other records are as before. -/
  others : ∀ r, s.liveRecord r = none → t.record r = s.record r
  /-- A region won gets a full addition, and a region yielded leaves the set. -/
  pub : ∀ r : Region, t.pubEntry r =
    if owned.getLsbD r.val = true ∧ (s.entry r).role.owns = true then
      (if s.ctl.ownId < p then
        (if (s.entry r).role = .owner ∧ s.pub.barred = false then fullAddition (s.pubEntry r) else s.pubEntry r)
      else none)
    else s.pubEntry r
  /-- A region yielded has no handover and no forced mark. -/
  serving : ∀ r : Region, t.serving r =
    if owned.getLsbD r.val = true ∧ (s.entry r).role.owns = true ∧ ¬s.ctl.ownId < p then
      { s.serving r with handover := .idle, forced := false }
    else s.serving r
  /-- A region yielded has no claimants. -/
  table : t.claims.table = s.claims.table.filter fun e =>
    !(owned.getLsbD e.region.val && (s.entry e.region).role.owns && !decide (s.ctl.ownId < p))
  /-- The frames that fall, the REFUSEs of the regions yielded and the CLAIMs of the records that changed, in the order of log 12. -/
  line : t.line = allRegions.foldl (fun l r => reconciledLine p (owned.getLsbD r.val) s r l) s.line
  /-- Nothing else changed. -/
  frame : { t with
    dir := s.dir, pub := { t.pub with set := s.pub.set }, claims := s.claims, cmd := s.cmd, line := s.line } = s

/-- The station wins a conflict (R87). -/
def won (r : Region) (rival : Station) (s : State) : State :=
  { s with pub := added r s, cmd := noticed [.conflict r rival true] s.ctl.ticks s.cmd }

/-- A frame of this header is taken from another station: the station takes frames and is not transmitting, and the header is of
revision 2 with this source, which the roster does not hold INCOMPATIBLE (R13, R92, R173). -/
structure Heard (s : State) (h : Header) (p : Station) : Prop where
  receives : s.ctl.mode.receives = true
  silent : s.transmitting = false
  major : h.major = 2
  source : stationOf h.source = some p
  other : p ≠ s.ctl.ownId
  compatible : (s.peer p).state ≠ .incompatible

/-- The attempt of this frame in flight is under way (R161). -/
structure Sending (s : State) (f : Flight) : Prop where
  flight : s.line.flight = some f
  transmitting : f.transmitting = true

/-- The deferral wait of this frame in flight ends on an idle line (R160, R161). -/
structure WaitEnds (s : State) (f : Flight) : Prop where
  flight : s.line.flight = some f
  waiting : f.wait.isSome = true
  silent : f.transmitting = false
  idle : s.line.carrier = false
  mode : s.ctl.mode.transmits = true

end Sys2Proof.Safety
end

