-- ==== Sys2Proof/Certificates/Slice0/Obligations.lean ====
section
/-! DEFINITION. The statements. Each says what a rule of spec/ says that the station does; their vocabulary is in
Sys2Proof/Safety.lean. Where an outcome is written as a whole state, that state is also the frame: what it does not name is as
before. -/

open Sys2Proof Sys2Proof.Machine Sys2Proof.Safety

/-! ### The step, reset and time -/

/-- A step takes the command at the front of the queue; an empty queue idles (log 2). -/
def Obligations.StepTakesTheFrontCommand : Prop :=
  (∀ (s : State) (c : Instr) (rest : List Instr), s.pending = c :: rest → step s = exec c { s with pending := rest }) ∧
    ∀ s : State, s.pending = [] → step s = .next s

/-- Every command that spells its row completes and leaves the queue alone; every other term is refused by name (log 21). -/
def Obligations.EveryCommandCompletes : Prop :=
  ∀ (c : Instr) (s : State),
    (c.wellFormed = true → ∃ t, exec c s = .next t ∧ t.pending = s.pending) ∧
    (c.wellFormed = false → exec c s = .refused .illFormed)

/-- R108, R109's clearing, R110, R141: nRST low puts every block at its pin reset values and the own ID at 0, nRST high samples the
straps, and the end of the
clearing enters CONFIG with the cause of the reset, its STATE notice and STATE_CHANGE.
The model's choices: the mailbox written while nRST is low is kept over its release (log 11), the configuration block holds its
defaults while nRST is low (log 7), the image reads 0 from the entry to RESET on (log 24), and the bar on additions ends (log 40). -/
def Obligations.PinResetAndClearing : Prop :=
  (∀ (s : State) (straps : Station),
     (∃ t, exec .nrstAsserted s = .next t ∧ BlocksCleared t ∧ DefaultConfig t.ctl.config ∧ t.port.nrstHigh = false ∧
       t.ctl.mode = .reset ∧ t.ctl.cause = .power ∧ t.ctl.ownId = 0 ∧ t.ctl.ticks = 0 ∧ t.cmd.argument = 0 ∧ t.cmd.command = 0 ∧
       t.cmd.result = .none ∧ t.pub.barred = false ∧ t.pending = s.pending) ∧
     (s.port.nrstHigh = false →
       ∃ t, exec (.nrstReleased straps) s = .next t ∧ BlocksCleared t ∧ DefaultConfig t.ctl.config ∧
         t.port = { s.port with nrstHigh := true } ∧ t.ctl.mode = .reset ∧ t.ctl.cause = .power ∧ t.ctl.ownId = straps ∧
         t.ctl.ticks = 0 ∧ t.cmd.argument = s.cmd.argument ∧ t.cmd.command = s.cmd.command ∧ t.cmd.result = s.cmd.result ∧
         t.pub.barred = false ∧ t.pending = s.pending)) ∧
  ∀ s : State, s.port.nrstHigh = true → s.ctl.mode = .reset →
    exec .imageClearComplete s = .next { s with
      ctl := { s.ctl with mode := .config }
      cmd := transited .config s.ctl.cause s.ctl.ticks s.cmd }

/-- R107: from the release of nRST a tick counts the tick count up and every running timer down, and the stale ages of R6.
That a timer is a count of ticks to go, and stays at 0 until its expiry row is commanded, is the model's choice (log 3). -/
def Obligations.TickDrivesEveryTimer : Prop :=
  ∀ s : State, s.port.nrstHigh = true →
    ∃ t, exec .msTick s = .next t ∧
      t.ctl = { s.ctl with ticks := s.ctl.ticks + 1, listen := counted s.ctl.listen, leave := counted s.ctl.leave
                           presence := counted s.ctl.presence } ∧
      (∀ r, t.entry r = { s.entry r with
        tenure := counted (s.entry r).tenure
        staleAge :=
          if (s.ctl.mode = .listen ∨ s.ctl.mode = .joining ∨ s.ctl.mode = .active ∨ s.ctl.mode = .leaving) ∧
              (s.entry r).replica = .stale then (if (s.entry r).staleAge < 65535 then (s.entry r).staleAge + 1 else 65535)
          else (s.entry r).staleAge }) ∧
      t.pub = { s.pub with refresh := counted s.pub.refresh, scan := counted s.pub.scan } ∧
      (∀ r, t.record r = (s.record r).map fun c =>
        { c with answer := counted c.answer, patience := counted c.patience, orphanWait := counted c.orphanWait }) ∧
      (∀ r, t.serving r = { s.serving r with redirect := counted (s.serving r).redirect }) ∧
      t.claims.table = s.claims.table ∧
      (∀ p, t.peer p = { s.peer p with silence := counted (s.peer p).silence }) ∧
      { t with ctl := s.ctl, dir := s.dir, pub := s.pub, claims := s.claims, roster := s.roster } = s

/-- R107: a timer started at d ms runs out at the d-th tick after its start, whichever timer it is. That it stays due from then on
while only ticks come, its expiry being a row of its own, is the model's choice (log 3). -/
def Obligations.TimersRunOutAtTheirTick : Prop :=
  ∀ (s : State) (k : Nat), s.port.nrstHigh = true →
    ∃ t, after (List.replicate k .msTick) s = some t ∧ t.ctl.ticks = s.ctl.ticks + BitVec.ofNat 16 k ∧
      (∀ d, s.ctl.listen = .running d → (t.ctl.listen.due = true ↔ d ≤ k)) ∧
      (∀ d, s.ctl.leave = .running d → (t.ctl.leave.due = true ↔ d ≤ k)) ∧
      (∀ d, s.ctl.presence = .running d → (t.ctl.presence.due = true ↔ d ≤ k)) ∧
      (∀ d, s.pub.refresh = .running d → (t.pub.refresh.due = true ↔ d ≤ k)) ∧
      (∀ d, s.pub.scan = .running d → (t.pub.scan.due = true ↔ d ≤ k)) ∧
      (∀ r d, (s.entry r).tenure = .running d → ((t.entry r).tenure.due = true ↔ d ≤ k)) ∧
      (∀ r d, (s.serving r).redirect = .running d → ((t.serving r).redirect.due = true ↔ d ≤ k)) ∧
      (∀ p d, (s.peer p).silence = .running d → ((t.peer p).silence.due = true ↔ d ≤ k)) ∧
      (∀ r c, s.record r = some c → ∃ c', t.record r = some c' ∧
        (∀ d, c.answer = .running d → (c'.answer.due = true ↔ d ≤ k)) ∧
        (∀ d, c.patience = .running d → (c'.patience.due = true ↔ d ≤ k)) ∧
        (∀ d, c.orphanWait = .running d → (c'.orphanWait.due = true ↔ d ≤ k)))

/-- Log 4 (the model's choice): an event of the part that cannot take place in the state it finds changes nothing. -/
def Obligations.EventsThatCannotOccurChangeNothing : Prop :=
  ∀ (s : State) (r : Region) (p : Station) (straps : Station),
    (s.port.nrstHigh = true → exec (.nrstReleased straps) s = .next s) ∧
    (s.port.nrstHigh = false ∨ s.ctl.mode ≠ .reset → exec .imageClearComplete s = .next s) ∧
    (s.port.nrstHigh = false → exec .msTick s = .next s) ∧
    (s.ctl.listen.due = false → exec .listenTimerExpiry s = .next s) ∧
    (s.ctl.leave.due = false → exec .leaveTimerExpiry s = .next s) ∧
    (s.ctl.presence.due = false → exec .presenceTimerExpiry s = .next s) ∧
    (s.pub.refresh.due = false → exec .refreshTimerExpiry s = .next s) ∧
    (s.pub.scan.due = false → exec .scanTimerExpiry s = .next s) ∧
    ((s.entry r).tenure.due = false → exec (.tenureTimerExpiry r) s = .next s) ∧
    ((∀ c, s.record r = some c → c.answer.due = false) → exec (.answerTimerExpiry r) s = .next s) ∧
    ((∀ c, s.record r = some c → c.patience.due = false) → exec (.patienceTimerExpiry r) s = .next s) ∧
    ((∀ c, s.record r = some c → c.orphanWait.due = false) → exec (.orphanWaitTimerExpiry r) s = .next s) ∧
    ((s.serving r).redirect.due = false → exec (.redirectTimerExpiry r) s = .next s) ∧
    ((s.peer p).silence.due = false → exec (.silenceTimerExpiry p) s = .next s) ∧
    (s.ctl.backlog = [] ∨ s.ctl.mode ≠ .active → exec .homeClaim s = .next s) ∧
    ((∀ f, s.line.flight = some f → f.transmitting = false) →
      exec .attemptCarried s = .next s ∧ exec .attemptCollision s = .next s) ∧
    ((∀ f, s.line.flight = some f → f.wait = none) → exec .deferralWaitExpiry s = .next s) ∧
    (s.ctl.mode = .reset ∨ s.line.carrier = true → exec .carrierStart s = .next s) ∧
    (s.ctl.mode = .reset ∨ (s.line.carrier = false ∧ s.line.burst = .unknown) → exec .lineIdle s = .next s)

/-! ### The host windows (spec/07) -/

/-- R127: an access is taken by the covering window of lowest index, at the region that window maps its unit to; without one it
has no translation. -/
def Obligations.WindowTranslation : Prop :=
  ∀ (c : ConfigBlock) (word : BitVec 13),
    (∀ (w : Window) (r : Region), windowTarget c word = some (w, r) ↔
      ∃ i : Fin 8, w = c.window i ∧ Covers w (word.toNat / 32) ∧ (∀ j : Fin 8, j < i → ¬Covers (c.window j) (word.toNat / 32)) ∧
        r.val = w.imageStart + (word.toNat / 32 - w.hostBase)) ∧
    (windowTarget c word = none ↔ ∀ i : Fin 8, ¬Covers (c.window i) (word.toNat / 32))

/-- R126, R128: a window read is answered by the first test that fails, and else by the bytes of its group of lanes; nothing else
changes. -/
def Obligations.WindowRead : Prop :=
  ∀ (s : State) (word : BitVec 13) (lanes : BitVec 4),
    let error := Host.Outcome.next { s with port := answered false 0 s.port }
    (s.ctl.mode = .reset ∨ laneGroup lanes = none ∨ windowTarget s.ctl.config word = none →
      exec (.windowRead word lanes) s = error) ∧
    ∀ first len w r, s.ctl.mode ≠ .reset → laneGroup lanes = some (first, len) → windowTarget s.ctl.config word = some (w, r) →
      (w.refuseStale = true ∧ (s.entry r).replica = .stale → exec (.windowRead word lanes) s = error) ∧
      (w.refuseStale = false ∨ (s.entry r).replica = .valid →
        ∃ data, exec (.windowRead word lanes) s = .next { s with port := answered true data s.port } ∧
          ∀ k : Fin 4, laneByte data k =
            if first ≤ k.val ∧ k.val < first + len then imageRead s.image (128 * r.val + 4 * (word.toNat % 32) + k.val) else 0)

/-- R24, R130: a window write to an owned region writes its enabled bytes and no other, adds their span to the publish set in the
same act, and is answered OK.
The 0 in the data of an answered write is the model's choice (log 5). -/
def Obligations.WindowWriteToOwned : Prop :=
  ∀ (s : State) (word : BitVec 13) (lanes : BitVec 4) (data : HostWord) (first len : Nat) (w : Window) (r : Region)
    (lo hi : Fin 4),
    s.ctl.mode = .active → s.pub.barred = false → ImageLaw s → laneGroup lanes = some (first, len) →
    windowTarget s.ctl.config word = some (w, r) → w.writeProtect = false → (s.entry r).role = .owner →
    (s.entry r).release ≠ .captured →
    lanes.getLsbD lo = true → lanes.getLsbD hi = true → (∀ k : Fin 4, lanes.getLsbD k = true → lo ≤ k ∧ k ≤ hi) →
    ∃ t a b, exec (.windowWrite word lanes data) s = .next t ∧
      (∀ k : Fin 4, lanes.getLsbD k = true →
        imageRead t.image (128 * r.val + 4 * (word.toNat % 32) + k.val) = laneByte data k) ∧
      (∀ x, (∀ k : Fin 4, lanes.getLsbD k = true → x ≠ 128 * r.val + 4 * (word.toNat % 32) + k.val) →
        imageRead t.image x = imageRead s.image x) ∧
      ImageLaw t ∧
      a.val = 4 * (word.toNat % 32) + lo.val ∧ b.val = 4 * (word.toNat % 32) + hi.val ∧
      t.pub = { s.pub with set := put s.pub.set r (spanAddition a b (s.pubEntry r)) } ∧
      t.port = answered true 0 s.port ∧
      { t with image := s.image, pub := s.pub, port := s.port } = s

/-- R129 to R132: a write through a claim-on-write window to a region not owned is parked behind the live claim of the region, or
with the claim that it requests; a write that fails any test is answered ERROR and changes nothing else.
The 0 in the data of an answered write is the model's choice (log 5). -/
def Obligations.WindowWriteParkedOrRefused : Prop :=
  (∀ (s : State) (word : BitVec 13) (lanes : BitVec 4) (data : HostWord) (first len : Nat) (w : Window) (r : Region)
     (offset : Offset),
     s.ctl.mode = .active → s.ctl.leaveQueued = false → laneGroup lanes = some (first, len) →
     windowTarget s.ctl.config word = some (w, r) → w.writeProtect = false → w.claimOnWrite = true →
     (s.entry r).role.owns = false → s.parked.length < 16 → offset.val = 4 * (word.toNat % 32) + first →
     let entry : ParkedWrite := { region := r, offset := offset, length := len, data := data, lanes := lanes }
     ((s.liveRecord r).isSome = true → exec (.windowWrite word lanes data) s = .next { s with
       port := answered true 0 s.port, parked := s.parked ++ [entry] }) ∧
     (Claimable s r → exec (.windowWrite word lanes data) s = .next { claimed r .write s with
       port := answered true 0 s.port, parked := s.parked ++ [entry] })) ∧
  ∀ (s : State) (word : BitVec 13) (lanes : BitVec 4) (data : HostWord),
    (s.ctl.mode ≠ .active ∨ laneGroup lanes = none ∨ windowTarget s.ctl.config word = none ∨
      ∃ w r, windowTarget s.ctl.config word = some (w, r) ∧
        (w.writeProtect = true ∨ (s.entry r).role = .handing ∨
          ((s.entry r).role = .owner ∧ (s.entry r).release = .captured) ∨
          ((s.entry r).role.owns = false ∧
            (w.claimOnWrite = false ∨ 16 ≤ s.parked.length ∨ (s.liveRecord r = none ∧ ¬Claimable s r))))) →
    exec (.windowWrite word lanes data) s = .next { s with port := answered false 0 s.port }

/-! ### The control area (spec/06 section 6.4, spec/08) -/

/-- R111: in CONFIG a well-formed write of the configuration area stores its enabled bytes as written, and in every other state it
is answered ERROR.
The 0 in the data of an answered write is the model's choice (log 5). -/
def Obligations.ConfigurationWrite : Prop :=
  ∀ (s : State) (word : BitVec 13) (lanes : BitVec 4) (data : HostWord), configWord word = true →
    (s.ctl.mode = .config → laneGroup lanes ≠ none →
      ∃ t, exec (.configurationWrite word lanes data) s = .next t ∧
        (∀ a, 0x8100 ≤ a → a < 0x8160 →
          (∀ k : Fin 4, a = 0x8000 + 4 * word.toNat + k.val → lanes.getLsbD k = true →
            t.controlByte a = some (laneByte data k)) ∧
          ((∀ k : Fin 4, a = 0x8000 + 4 * word.toNat + k.val → lanes.getLsbD k = false) → t.controlByte a = s.controlByte a)) ∧
        t.port = answered true 0 s.port ∧
        { t with port := s.port, ctl := { t.ctl with config := s.ctl.config } } = s) ∧
    (s.ctl.mode ≠ .config ∨ laneGroup lanes = none →
      exec (.configurationWrite word lanes data) s = .next { s with port := answered false 0 s.port })

/-- R152, R140, R142: a pop removes the oldest notice; a one-byte write of the argument is stored in every state; every other
write that reaches these rows is answered ERROR.
The 0 in the data of an answered write is the model's choice (log 5). -/
def Obligations.NoticePopAndRegisterWrite : Prop :=
  ∀ (s : State) (word : BitVec 13) (lanes : BitVec 4) (data : HostWord),
    (s.ctl.mode ≠ .reset → laneGroup lanes ≠ none → exec (.noticePop lanes data) s = .next { s with
      port := answered true 0 s.port, cmd := { s.cmd with notices := s.cmd.notices.drop 1 } }) ∧
    (s.ctl.mode = .reset ∨ laneGroup lanes = none →
      exec (.noticePop lanes data) s = .next { s with port := answered false 0 s.port }) ∧
    (word = 4 → lanes = 0b0001 → exec (.registerWrite word lanes data) s = .next { s with
      port := answered true 0 s.port, cmd := { s.cmd with argument := laneByte data 0 } }) ∧
    (ownRowWord word = false → issuesCommand word lanes = false → ¬(word = 4 ∧ lanes = 0b0001) →
      exec (.registerWrite word lanes data) s = .next { s with port := answered false 0 s.port })

/-- R154, R155, R156: a 1 written to a latched flag clears it and NOTICE follows the queue; the mask is stored as written; nINT is
low exactly while a flag is set whose mask bit is 1. That the byte not enabled is left alone is the model's choice (log 18).
The 0 in the data of an answered write is the model's choice (log 5). -/
def Obligations.FlagsAndMaskWrites : Prop :=
  ∀ (s : State) (lanes : BitVec 4) (data : HostWord),
    (s.interrupt = true ↔ ∃ i : Fin 5, s.cmd.flags.getLsbD i = true ∧ s.cmd.mask.getLsbD i = true) ∧
    (s.cmd.flags.getLsbD 0 = true ↔ s.cmd.notices ≠ []) ∧
    (s.ctl.mode ≠ .reset → laneGroup lanes ≠ none → lanes.getLsbD 0 = true →
      (∃ t, exec (.flagsWrite lanes data) s = .next t ∧ t.port = answered true 0 s.port ∧
        (∀ i : Fin 5, t.cmd.flags.getLsbD i = (s.cmd.flags.getLsbD i && (i == 0 || !data.getLsbD i))) ∧
        { t with port := s.port, cmd := { t.cmd with overflowFlag := s.cmd.overflowFlag, commandDone := s.cmd.commandDone,
                                                     stateChange := s.cmd.stateChange, lineFlag := s.cmd.lineFlag } } = s) ∧
      ∃ t, exec (.maskWrite lanes data) s = .next t ∧ t.port = answered true 0 s.port ∧
        (∀ i : Fin 5, t.cmd.mask.getLsbD i = data.getLsbD i) ∧
        { t with port := s.port, cmd := { t.cmd with mask := s.cmd.mask } } = s) ∧
    (s.ctl.mode ≠ .reset → laneGroup lanes ≠ none → lanes.getLsbD 0 = false →
      exec (.flagsWrite lanes data) s = .next { s with port := answered true 0 s.port } ∧
      exec (.maskWrite lanes data) s = .next { s with port := answered true 0 s.port }) ∧
    (s.ctl.mode = .reset ∨ laneGroup lanes = none →
      exec (.flagsWrite lanes data) s = .next { s with port := answered false 0 s.port } ∧
      exec (.maskWrite lanes data) s = .next { s with port := answered false 0 s.port })

/-! ### The commands of the mailbox (spec/08 section 8.2) -/

/-- R142, R143: in RESET every command code is stored and answered BUSY, with no other effect; outside RESET a code that names no
command, a command taken in another state, and a region command on an argument of 128 or more are refused, with no other effect.
The 0 in the data of an answered write is the model's choice (log 5). -/
def Obligations.CommandsRefused : Prop :=
  ∀ (s : State) (c : Instr) (code : Byte) (arg : Option Byte), Mailed c code arg →
    (s.ctl.mode = .reset → exec c s = .next { s with
      port := answered true 0 s.port
      cmd := { s.cmd with command := code, argument := arg.getD s.cmd.argument, result := .busy } }) ∧
    (s.ctl.mode ≠ .reset →
      (code ∉ commandCodes → exec c s = .next (commandAnswered .unknown code arg s)) ∧
      (code = 0x01 → s.ctl.mode ≠ .config → exec c s = .next (commandAnswered .state code arg s)) ∧
      (code = 0x02 → s.ctl.mode ≠ .active → exec c s = .next (commandAnswered .state code arg s)) ∧
      (code = 0x03 → s.ctl.mode = .listen ∨ s.ctl.mode = .joining ∨ s.ctl.mode = .active ∨ s.ctl.mode = .leaving →
        exec c s = .next (commandAnswered .state code arg s)) ∧
      (code ∈ [(0x10 : Byte), 0x11, 0x12, 0x13, 0x14, 0x15] →
        (s.ctl.mode ≠ .active → exec c s = .next (commandAnswered .state code arg s)) ∧
        (s.ctl.mode = .active → 128 ≤ (commandArgument arg s).toNat →
          exec c s = .next (commandAnswered .range code arg s))))

/-- R112, R113: JOIN answers INVALID with the lowest item that fails, and with none it freezes the block and enters LISTEN with
the listen timer at M x P.
The 0 in the data of an answered write is the model's choice (log 5). -/
def Obligations.JoinCommand : Prop :=
  ∀ (s : State) (arg : Option Byte), s.ctl.mode = .config →
    (∀ i, ItemFails s.ctl.ownId s.ctl.config i → (∀ j, j < i → ¬ItemFails s.ctl.ownId s.ctl.config j) →
      exec (.joinCommand arg) s = .next (commandAnswered (.invalid i) 0x01 arg s)) ∧
    ((∀ i, ¬ItemFails s.ctl.ownId s.ctl.config i) → exec (.joinCommand arg) s = .next { s with
      port := answered true 0 s.port
      ctl := { s.ctl with mode := .listen, cause := .command
                          listen := .running (s.ctl.config.param 1 % 16 * (10 * s.ctl.config.param 0)) }
      cmd := mailed .done 0x01 arg (transited .listen .command s.ctl.ticks s.cmd) })

/-- R117, R118, R119: LEAVE fails every live claim, gives every owned region with claimants to its queue and releases every other;
with nothing left to do the LEAVE frame is queued at once.
The model's choices: the HANDOVERs are handed over in ascending region order and then the RELEASEs likewise (log 34), a WITHDRAW is
marked as a LEAVE failure's (log 17), and the data of an answered write is 0 (log 5). -/
def Obligations.LeaveCommand : Prop :=
  ∀ (s : State) (arg : Option Byte), s.ctl.mode = .active → s.ctl.leaveQueued = false →
    let v : State := { s with ctl := { s.ctl with mode := .leaving } }
    let failed := allRegions.foldl (fun l r => failedLine s r l) s.line
    let line := handAll .release (allRegions.filter fun r => Releasable v r)
      (handAll .handover (allRegions.filter fun r => Servable v r) failed)
    exec (.leaveCommand arg) s = .next (State.leaveIfDone { s with
      port := answered true 0 s.port
      ctl := { s.ctl with mode := .leaving, cause := .command, leave := .running 500, backlog := [] }
      cmd := mailed .done 0x02 arg { noticed
        (.state .leaving .command :: allRegions.flatMap fun r => failNotices r .leave s) s.ctl.ticks s.cmd with
        stateChange := true }
      parked := s.parked.filter fun w => (s.liveRecord w.region).isNone
      dir := Vector.ofFn fun r => if Releasable v r then { s.entry r with release := .queued } else s.entry r
      claims := { s.claims with
        records := Vector.ofFn fun r => failedRecord s line r
        serve := Vector.ofFn fun r => if Servable v r then { s.serving r with handover := .queued } else s.serving r }
      line := line })

/-- R37, R109: RESTART takes every block to its values of reset and samples the straps; the configuration, the tick count and the
mailbox are kept, a bar on additions stands until the station is next ACTIVE, and the result is DONE.
The model's choices: the image reads 0 from the entry to RESET on (log 24), and the data of an answered write is 0 (log 5). -/
def Obligations.RestartCommand : Prop :=
  ∀ (s : State) (arg : Option Byte) (straps : Station),
    s.ctl.mode = .config ∨ s.ctl.mode = .offline ∨ s.ctl.mode = .isolated →
    ∃ t, exec (.restartCommand arg straps) s = .next t ∧ BlocksCleared t ∧ t.ctl.mode = .reset ∧ t.ctl.cause = .restart ∧
      t.ctl.ownId = straps ∧ t.ctl.config = s.ctl.config ∧ t.ctl.ticks = s.ctl.ticks ∧
      t.cmd.argument = commandArgument arg s ∧ t.cmd.command = 0x03 ∧ t.cmd.result = .done ∧
      t.port = answered true 0 s.port ∧ t.pub.barred = s.pub.barred

/-- R145, R146, R42, R53: CLAIM of a region makes a record with origin COMMAND where none stands and a slot or a closing record
gives room; WITHDRAW fails its live record with WITHDRAWN. Each is else answered with its result and changes nothing else.
The 0 in the data of an answered write is the model's choice (log 5). -/
def Obligations.ClaimAndWithdrawCommands : Prop :=
  ∀ (s : State) (arg : Option Byte) (r : Region), s.ctl.mode = .active → s.ctl.leaveQueued = false →
    (commandArgument arg s).toNat = r.val →
    ((s.entry r).role.owns = true ∨ (s.liveRecord r).isSome = true →
      exec (.claimCommand arg) s = .next (commandAnswered .already 0x10 arg s)) ∧
    (Claimable s r → exec (.claimCommand arg) s = .next { claimed r .command s with
      port := answered true 0 s.port, cmd := mailed .done 0x10 arg s.cmd }) ∧
    ((s.entry r).role.owns = false → s.liveRecord r = none → ¬Claimable s r →
      exec (.claimCommand arg) s = .next (commandAnswered .noRecord 0x10 arg s)) ∧
    (∀ c, s.liveRecord r = some c → ∃ t, exec (.withdrawCommand arg) s = .next t ∧ t.port = answered true 0 s.port ∧
      Failed r .withdrawn c { s with cmd := mailed .done 0x11 arg s.cmd } { t with port := s.port }) ∧
    (s.liveRecord r = none → exec (.withdrawCommand arg) s = .next (commandAnswered .noClaim 0x11 arg s))

/-- R147, R63, R71: RELEASE of an owned region clears held and sets forced, and then hands the region over to its queue or
releases it, where nothing of it is pending; of any other region it is answered NOT_OWNER.
The 0 in the data of an answered write is the model's choice (log 5). -/
def Obligations.ReleaseCommand : Prop :=
  ∀ (s : State) (arg : Option Byte) (r : Region), s.ctl.mode = .active → s.ctl.leaveQueued = false →
    (commandArgument arg s).toNat = r.val →
    let port := answered true 0 s.port
    let cmd := mailed .done 0x12 arg s.cmd
    ((s.entry r).role ≠ .owner → exec (.releaseCommand arg) s = .next (commandAnswered .notOwner 0x12 arg s)) ∧
    ((s.entry r).role = .owner → (s.serving r).handover = .idle → (s.entry r).release = .idle → s.claimants r ≠ [] →
      exec (.releaseCommand arg) s = .next { s with
        port := port, cmd := cmd
        dir := put s.dir r { s.entry r with held := false }
        claims := { s.claims with serve := put s.claims.serve r { s.serving r with forced := true, handover := .queued } }
        line := handLine (.handover r) s.line }) ∧
    ((s.entry r).role = .owner → (s.serving r).handover = .idle → (s.entry r).release = .idle → s.claimants r = [] →
      exec (.releaseCommand arg) s = .next { s with
        port := port, cmd := cmd
        dir := put s.dir r { s.entry r with held := false, release := .queued }
        claims := { s.claims with serve := put s.claims.serve r { s.serving r with forced := true } }
        line := handLine (.release r) s.line }) ∧
    ((s.entry r).role = .owner → (s.serving r).handover ≠ .idle ∨ (s.entry r).release ≠ .idle →
      exec (.releaseCommand arg) s = .next { s with
        port := port, cmd := cmd
        dir := put s.dir r { s.entry r with held := false }
        claims := { s.claims with serve := put s.claims.serve r { s.serving r with forced := true } } })

/-- R148, R149: HOLD and UNHOLD set and clear the held mark of an owned region and REFRESH gives it a full addition; an UNHOLD
that makes the serving condition of R62 hold serves the region. Of any other region they are answered NOT_OWNER.
The 0 in the data of an answered write is the model's choice (log 5). -/
def Obligations.HoldUnholdRefresh : Prop :=
  ∀ (s : State) (arg : Option Byte) (r : Region), s.ctl.mode = .active → s.ctl.leaveQueued = false → s.pub.barred = false →
    (commandArgument arg s).toNat = r.val →
    let port := answered true 0 s.port
    let unheld := put s.dir r { s.entry r with held := false }
    let served := s.claimants r ≠ [] ∧ (s.serving r).handover = .idle ∧ (s.entry r).release = .idle ∧
      ((s.serving r).forced = true ∨ (s.entry r).tenure = .stopped)
    ((s.entry r).role = .owner →
      exec (.holdCommand arg) s = .next { s with
        port := port, cmd := mailed .done 0x13 arg s.cmd, dir := put s.dir r { s.entry r with held := true } } ∧
      (served → exec (.unholdCommand arg) s = .next { s with
        port := port, cmd := mailed .done 0x14 arg s.cmd, dir := unheld
        claims := { s.claims with serve := put s.claims.serve r { s.serving r with handover := .queued } }
        line := handLine (.handover r) s.line }) ∧
      (¬served → exec (.unholdCommand arg) s = .next { s with
        port := port, cmd := mailed .done 0x14 arg s.cmd, dir := unheld }) ∧
      exec (.refreshCommand arg) s = .next { s with
        port := port, cmd := mailed .done 0x15 arg s.cmd
        pub := { s.pub with set := put s.pub.set r (fullAddition (s.pubEntry r)) } }) ∧
    ((s.entry r).role ≠ .owner →
      exec (.holdCommand arg) s = .next (commandAnswered .notOwner 0x13 arg s) ∧
      exec (.unholdCommand arg) s = .next (commandAnswered .notOwner 0x14 arg s) ∧
      exec (.refreshCommand arg) s = .next (commandAnswered .notOwner 0x15 arg s))

/-! ### What goes on by itself: serving, releasing, leaving -/

/-- R62, R63, R118, R119: a region that may have become servable is served, and in LEAVING one without claimants is requested
released; once the leaving work is done the LEAVE frame is queued, alone, and publication and the presence timer stop. The premise
of the first part is a clause of LeaveLaw, which every step keeps. That a queued frame of a yielded region still counts as leaving
work is the model's choice (log 35). -/
def Obligations.RegionsAndLeavingGoOn : Prop :=
  (∀ (s : State) (r : Region), (s.ctl.leaveQueued = true → s.ctl.mode = .leaving) →
     (Servable s r → s.goOn r = { s with
       claims := { s.claims with serve := put s.claims.serve r { s.serving r with handover := .queued } }
       line := handLine (.handover r) s.line }) ∧
     (Releasable s r → s.goOn r = { s with
       dir := put s.dir r { s.entry r with release := .queued }
       line := handLine (.release r) s.line }) ∧
     (¬Servable s r → ¬Releasable s r → s.goOn r = s)) ∧
  ∀ s : State,
    (s.ctl.mode = .leaving → s.ctl.leaveQueued = false → WorkDone s →
      (s.leaveIfDone).line = { s.line with queue := [{ frame := .leave, fallen := false }], marks := [] } ∧
      (s.leaveIfDone).ctl = { s.ctl with leave := .stopped, presence := .stopped, presenceDue := false, leaveQueued := true } ∧
      (∀ r, (s.leaveIfDone).pubEntry r = none) ∧ (s.leaveIfDone).pub.refresh = .stopped ∧
      (s.leaveIfDone).pub.scan = .stopped ∧ (s.leaveIfDone).pub.pointer = s.pub.pointer ∧ (s.leaveIfDone).pub.barred = true ∧
      (∀ r, (s.leaveIfDone).entry r = s.entry r) ∧ (∀ r, (s.leaveIfDone).serving r = s.serving r) ∧
      (s.leaveIfDone).claims.table = s.claims.table ∧
      (∀ r, (s.leaveIfDone).record r = s.liveRecord r) ∧
      { s.leaveIfDone with line := s.line, ctl := s.ctl, pub := s.pub, claims := s.claims, dir := s.dir } = s) ∧
    (s.ctl.mode ≠ .leaving ∨ s.ctl.leaveQueued = true ∨ ¬WorkDone s → s.leaveIfDone = s)

/-! ### The line (spec/09) -/

/-- R159, R160: carrier ends a deferral wait; the end of a burst moves the rotation counter and begins a deferral wait for the
frame in flight, if it is not being sent.
The model's choices: LINE_IDLE counts a burst that was found without a CARRIER_START (log 9), and carrier follows the commands
also while the station transmits (log 33). -/
def Obligations.CarrierAndIdle : Prop :=
  ∀ s : State, s.ctl.mode ≠ .reset →
    (s.line.carrier = false → exec .carrierStart s = .next { s with line := { s.line with
      carrier := true, burst := .unknown, flight := s.line.flight.map fun f => { f with wait := none } } }) ∧
    (s.line.carrier = true ∨ s.line.burst ≠ .unknown → ∀ rotation : BitVec 5,
      (∀ source, s.line.burst = .good source → rotation.toNat = (source.toNat + 1) % 32) →
      ((∀ source, s.line.burst ≠ .good source) → rotation.toNat = (s.line.rotation.toNat + 1) % 32) →
      exec .lineIdle s = .next { s with line := { s.line with
        carrier := false, burst := .unknown, rotation := rotation
        flight := s.line.flight.map fun f =>
          if f.transmitting = true then f
          else { f with wait := some (waitLength s.ctl.ownId rotation f.attempt (isUpdate f.job)) } } })

/-- R160: the length of a deferral wait is its formula's; stations that hold one rotation counter have distinct waits for one attempt
number, every control-class wait lies in 4 to 97 us and every UPDATE wait in 100 to 193 us, so control-class frames start first. -/
def Obligations.DeferralWaits : Prop :=
  ∀ (own : Station) (rotation : BitVec 5) (n : Nat) (job : Job), 1 ≤ n → n ≤ 16 →
    deferralWait own rotation n job = waitLength own rotation n (isUpdate job) ∧
    (∀ (other : Station) (job' : Job), other ≠ own → deferralWait other rotation n job' ≠ deferralWait own rotation n job) ∧
    (isUpdate job = false → 4 ≤ deferralWait own rotation n job ∧ deferralWait own rotation n job ≤ 97) ∧
    (isUpdate job = true → 100 ≤ deferralWait own rotation n job ∧ deferralWait own rotation n job ≤ 193) ∧
    (isUpdate job = false → rotation.toNat = (own.val + 1) % 32 → deferralWait own rotation 1 job = 97)

/-- R167, R169, R170: on an idle line with nothing in flight the scheduler takes, in the order of its table, the publish offer
after a control run of 4, a due PRESENCE, the head of the control queue, or the publish offer; a queue head lets the oldest mark's
frame in. With no frame at any source, or where it may not take, it does nothing more than queue a LEAVE frame that is due. -/
def Obligations.SchedulerOrder : Prop :=
  ∀ (s : State),
    (s.ctl.mode.transmits = true → s.line.flight = none → s.line.carrier = false →
      ((s.line.controlRun ≠ 4 ∨ ∀ r, ¬Offered s r) → s.ctl.presenceDue = true →
        ∃ run, ((∃ r, Offered s r) → run = min 4 (s.line.controlRun + 1)) ∧ ((∀ r, ¬Offered s r) → run = 0) ∧
          exec .schedulerTake s = .next (State.leaveIfDone { s with
            ctl := { s.ctl with presenceDue := false }
            line := { s.line with flight := some (entering .presence none false s), controlRun := run } })) ∧
      ((s.line.controlRun ≠ 4 ∨ ∀ r, ¬Offered s r) → s.ctl.presenceDue = false → ∀ e rest, s.line.queue = e :: rest →
        ∃ run t, ((∃ r, Offered s r) → run = min 4 (s.line.controlRun + 1)) ∧ ((∀ r, ¬Offered s r) → run = 0) ∧
          exec .schedulerTake s = .next (State.leaveIfDone t) ∧
          t.line = { admitted { s.line with queue := rest } with
            flight := some (entering (.control e.frame) none e.fallen s), controlRun := run } ∧
          (∀ r, t.record r =
            if s.line.marks.head? = some (.withdraw r true) ∨ s.line.marks.head? = some (.withdraw r false) then none
            else s.record r) ∧
          { t with line := s.line, claims := { t.claims with records := s.claims.records } } = s) ∧
      (∀ r, Offered s r → s.line.controlRun = 4 ∨ (s.ctl.presenceDue = false ∧ s.line.queue = []) →
        ∃ x, exec .schedulerTake s = .next (State.leaveIfDone { s with
          pub := { s.pub with set := put s.pub.set r none, pointer := r }
          line := { s.line with flight := some (entering (.update r) (some x) false s), controlRun := 0 } })) ∧
      ((∀ r, ¬Offered s r) → s.ctl.presenceDue = false → s.line.queue = [] →
        exec .schedulerTake s = .next (State.leaveIfDone s))) ∧
    (s.ctl.mode.transmits = false ∨ s.line.flight ≠ none ∨ s.line.carrier = true →
      exec .schedulerTake s = .next (State.leaveIfDone s))

/-- R27: the UPDATE captured from the publish offer carries sequence last + 1 and the bytes of its span, or the whole region; the
entry leaves the set, the pointer follows, and the last sequence is not changed. -/
def Obligations.UpdateCapture : Prop :=
  ∀ (s : State) (r : Region) (e : PubEntry),
    s.ctl.mode.transmits = true → s.line.flight = none → s.line.carrier = false → Offered s r → s.pubEntry r = some e →
    e.low ≤ e.high → s.line.controlRun = 4 ∨ (s.ctl.presenceDue = false ∧ s.line.queue = []) →
    ∃ offset length data,
      exec .schedulerTake s = .next (State.leaveIfDone { s with
        pub := { s.pub with set := put s.pub.set r none, pointer := r }
        line := { s.line with
          controlRun := 0
          flight := some (entering (.update r) (some
            { header := ownHeader s (some r) ((s.entry r).lastSeq + 1), payload := .update offset length data }) false s) } }) ∧
      (e.full = true → offset = 0 ∧ length = 128) ∧
      (e.full = false → offset.toNat = e.low.val ∧ length.toNat = e.high.val - e.low.val + 1) ∧
      data.length = length.toNat ∧
      ∀ i, i < length.toNat → data.getD i 0 = imageRead s.image (128 * r.val + offset.toNat + i)

/-- R163 and the rules it names (R36, R43, R53, R81, R114, R115, R120): when the deferral wait of a first attempt ends, a PRESENCE,
JOIN, LEAVE, CLAIM, WAIT, REFUSE, WITHDRAW, REPAIR or TAKE that passes its tests is sent with the fields of its kind, and one that
fails them is discarded. Where R81's note of a STALE replica stands, and that carrier is as it was told, are the model's choices
(logs 32 and 33). -/
def Obligations.FirstAttempts : Prop :=
  ∀ (s : State) (f : Flight), WaitEnds s f → f.frame = none →
    let sent (seq : Half) (p : Payload) : Host.Outcome State Fault Refusal :=
      .next (State.leaveIfDone { s with line := started f { header := ownHeader s f.job.region seq, payload := p } s.line })
    let discarded : Host.Outcome State Fault Refusal := .next (State.leaveIfDone { s with line := unflown s.line })
    (f.job = .presence → ∃ owned : BitVec 128, (∀ r : Region, owned.getLsbD r.val = (s.entry r).role.owns) ∧
      exec .deferralWaitExpiry s =
        sent 0 (.presence (ownProfile s) (if s.ctl.mode = .leaving then 2 else 1) owned)) ∧
    (f.job = .control .join → exec .deferralWaitExpiry s = sent 0 (.join (ownProfile s))) ∧
    (f.job = .control .leave → exec .deferralWaitExpiry s = sent 0 .leave) ∧
    (∀ r p q, f.job = .control (.wait r p q) → q < 256 →
      exec .deferralWaitExpiry s = sent 0 (.wait (BitVec.ofNat 8 p.val) (BitVec.ofNat 8 q))) ∧
    (∀ r p b, f.job = .control (.refuse r p .notOwner b) →
      exec .deferralWaitExpiry s = sent 0 (.refuse (BitVec.ofNat 8 p.val) 1 (stationByte b))) ∧
    (∀ r p b, f.job = .control (.refuse r p .queueFull b) →
      exec .deferralWaitExpiry s = sent 0 (.refuse (BitVec.ofNat 8 p.val) 2 (stationByte b))) ∧
    (∀ r p b, f.job = .control (.refuse r p .leaving b) →
      exec .deferralWaitExpiry s = sent 0 (.refuse (BitVec.ofNat 8 p.val) 3 (stationByte b))) ∧
    (∀ r, f.job = .control (.claim r) →
      ((f.fallen = false ∧ ∃ c, s.liveRecord r = some c ∧ c.state = .asking) → exec .deferralWaitExpiry s = sent 0 .claim) ∧
      (f.fallen = true ∨ (∀ c, s.liveRecord r = some c → c.state ≠ .asking) → exec .deferralWaitExpiry s = discarded)) ∧
    (∀ r l, f.job = .control (.withdraw r l) →
      ((s.entry r).role.owns = false → exec .deferralWaitExpiry s = sent 0 .withdraw) ∧
      ((s.entry r).role.owns = true → exec .deferralWaitExpiry s = discarded)) ∧
    (∀ r, f.job = .control (.repair r) →
      ((s.entry r).repair = true → exec .deferralWaitExpiry s = sent 0 .repair) ∧
      ((s.entry r).repair = false → exec .deferralWaitExpiry s = discarded)) ∧
    ∀ r, f.job = .control (.take r) →
      (∀ c, (s.entry r).role = .orphan → s.liveRecord r = some c → c.kind = .orphan → c.state = .taking →
        exec .deferralWaitExpiry s = .next (State.leaveIfDone { s with
          line := started { f with staleAtTake := (s.entry r).replica == .stale }
            { header := ownHeader s (some r) ((s.entry r).lastSeq + 1), payload := .take (contentOf s r) } s.line })) ∧
      ((s.entry r).role ≠ .orphan ∨ (∀ c, s.liveRecord r = some c → c.kind = .normal ∨ c.state ≠ .taking) →
        exec .deferralWaitExpiry s = discarded)

/-- R64, R88: a HANDOVER at the start of its first attempt is discarded where its region was yielded meanwhile, and else tested in
the order of R64's table and captured toward its head claimant with the claimants at positions 2 to 4, its region becoming HANDING.
That a forced region whose RELEASE R71 does not take loses its forced mark all the same is the model's choice (log 20), and so is
carrier at the start of an attempt (log 33). -/
def Obligations.HandoverCapture : Prop :=
  ∀ (s : State) (f : Flight) (r : Region), WaitEnds s f → f.frame = none → f.job = .control (.handover r) →
    let ended (e : ServeEntry) : State :=
      { s with claims := { s.claims with serve := put s.claims.serve r { e with handover := .idle } }, line := unflown s.line }
    let heldBack := s.ctl.mode ≠ .leaving ∧ (s.serving r).forced = false ∧
      ((s.entry r).held = true ∨ (s.entry r).tenure ≠ .stopped)
    let ends (t : State) : Prop := exec .deferralWaitExpiry s = .next t.leaveIfDone
    (f.fallen = true → ends { s with line := unflown s.line }) ∧
    (f.fallen = false →
      ((s.entry r).role ≠ .owner → ends (ended (s.serving r))) ∧
      ((s.entry r).role = .owner → s.claimants r = [] →
        ((s.serving r).forced = true → s.ctl.leaveQueued = false → (s.entry r).release = .idle →
          ends { ended { s.serving r with forced := false } with
            dir := put s.dir r { s.entry r with release := .queued }
            line := handLine (.release r) (unflown s.line) }) ∧
        ((s.serving r).forced = true → s.ctl.leaveQueued = true ∨ (s.entry r).release ≠ .idle →
          ends (ended { s.serving r with forced := false })) ∧
        ((s.serving r).forced = false → ends ((ended (s.serving r)).goOn r))) ∧
      ∀ p rest, (s.entry r).role = .owner → s.claimants r = p :: rest →
        (heldBack → ends (ended (s.serving r))) ∧
        (¬heldBack → (s.peer p).state ≠ .present → ends (State.goOn r
          { s with
            claims := { s.claims with
              serve := put s.claims.serve r { s.serving r with handover := .idle }
              table := s.claims.table.filter fun e => !(e.region == r && e.claimant == p) }
            line := unflown s.line })) ∧
        (¬heldBack → (s.peer p).state = .present → ∃ count ids,
          ends { s with
            dir := put s.dir r { s.entry r with role := .handing }
            pub := { s.pub with set := put s.pub.set r none }
            claims := { s.claims with
              serve := put s.claims.serve r { s.serving r with handover := .captured p (p :: rest.take 3) } }
            line := started f
              { header := ownHeader s (some r) ((s.entry r).lastSeq + 1)
                payload := .handover (BitVec.ofNat 8 p.val) count ids (contentOf s r) } s.line } ∧
          count.toNat = min 3 rest.length ∧
          ∀ i : Fin 3, pick ids i = stationByte (rest.take 3)[i.val]?))

/-- R72, R88: a RELEASE at the start of its first attempt is discarded where its region was yielded meanwhile, and else tested in the
order of R72's table and captured with sequence last + 1. Carrier at the start of an attempt is the model's choice (log 33). -/
def Obligations.ReleaseCapture : Prop :=
  ∀ (s : State) (f : Flight) (r : Region), WaitEnds s f → f.frame = none → f.job = .control (.release r) →
    let idle : State := { s with dir := put s.dir r { s.entry r with release := .idle }, line := unflown s.line }
    let ends (t : State) : Prop := exec .deferralWaitExpiry s = .next t.leaveIfDone
    (f.fallen = true → ends { s with line := unflown s.line }) ∧
    (f.fallen = false →
      ((s.entry r).role ≠ .owner → ends idle) ∧
      ((s.entry r).role = .owner → s.claimants r ≠ [] → ends (idle.goOn r)) ∧
      ((s.entry r).role = .owner → s.claimants r = [] → (s.pubEntry r).isSome = true →
        ends { s with line := handed (.release r) { s with line := unflown s.line } }) ∧
      ((s.entry r).role = .owner → s.claimants r = [] → s.pubEntry r = none →
        ends { s with
          dir := put s.dir r { s.entry r with release := .captured }
          line := started f { header := ownHeader s (some r) ((s.entry r).lastSeq + 1), payload := .release } s.line }))

/-- R28, R43, R65, R72, R76, R81, R88, R115, R163, R164: before each later attempt a PRESENCE is captured anew, any other captured frame
that still stands is sent unchanged, and one that does not is withdrawn; a HANDOVER whose target is lost gives its region back.
A CLAIM whose ORPHAN record deferred or was answered has fallen (ClaimReceived, WaitReceived, RefuseReceived). The model's choices: the
CLAIM of a record that R78 converted in ASKING is sent again (log 16), where R76 says of a converted record's that it is not; carrier
at the start of an attempt (log 33). -/
def Obligations.LaterAttempts : Prop :=
  ∀ (s : State) (f : Flight) (x : Frame), WaitEnds s f → f.frame = some x →
    let again : Host.Outcome State Fault Refusal := .next (State.leaveIfDone { s with line := started f x s.line })
    let withdrawn : Host.Outcome State Fault Refusal := .next (State.leaveIfDone { s with line := unflown s.line })
    (f.job = .presence → ∃ owned : BitVec 128, (∀ r : Region, owned.getLsbD r.val = (s.entry r).role.owns) ∧
      exec .deferralWaitExpiry s = .next (State.leaveIfDone { s with
        line := started f
          { header := ownHeader s none 0, payload := .presence (ownProfile s) (if s.ctl.mode = .leaving then 2 else 1) owned }
          s.line })) ∧
    (∀ r, f.job = .update r →
      (f.fallen = false → (s.entry r).role = .owner → exec .deferralWaitExpiry s = again) ∧
      (f.fallen = true ∨ (s.entry r).role ≠ .owner → exec .deferralWaitExpiry s = withdrawn)) ∧
    (f.job = .control .join ∨ f.job = .control .leave ∨ (∃ r p q, f.job = .control (.wait r p q)) ∨
      (∃ r p why b, f.job = .control (.refuse r p why b)) ∨ (∃ r l, f.job = .control (.withdraw r l)) ∨
      (∃ r, f.job = .control (.repair r)) → exec .deferralWaitExpiry s = again) ∧
    (∀ r, f.job = .control (.claim r) →
      (∀ c, f.fallen = false → s.liveRecord r = some c → c.kind = .normal ∨ c.state = .asking →
        exec .deferralWaitExpiry s = again) ∧
      (f.fallen = true ∨ (∀ c, s.liveRecord r = some c → c.kind = .orphan ∧ c.state ≠ .asking) →
        exec .deferralWaitExpiry s = withdrawn)) ∧
    (∀ r, f.job = .control (.take r) →
      (∀ c, (s.entry r).role = .orphan → s.liveRecord r = some c → c.kind = .orphan → c.state = .taking →
        exec .deferralWaitExpiry s = again) ∧
      ((s.entry r).role ≠ .orphan ∨ (∀ c, s.liveRecord r = some c → c.kind = .normal ∨ c.state ≠ .taking) →
        exec .deferralWaitExpiry s = withdrawn)) ∧
    (∀ r, f.job = .control (.release r) →
      (f.fallen = false → (s.entry r).role = .owner → exec .deferralWaitExpiry s = again) ∧
      (f.fallen = false → (s.entry r).role ≠ .owner → exec .deferralWaitExpiry s = .next (State.leaveIfDone
        { s with dir := put s.dir r { s.entry r with release := .idle }, line := unflown s.line })) ∧
      (f.fallen = true → exec .deferralWaitExpiry s = withdrawn)) ∧
    ∀ r, f.job = .control (.handover r) →
      (∀ target list, f.fallen = false → (s.serving r).handover = .captured target list →
        ((s.peer target).state = .present → exec .deferralWaitExpiry s = again) ∧
        ((s.peer target).state ≠ .present → (s.entry r).role = .handing →
          let u : State := { s with
            dir := put s.dir r { s.entry r with role := .owner }
            claims := { s.claims with
              serve := put s.claims.serve r { s.serving r with handover := .idle }
              table := s.claims.table.filter fun e => !(e.region == r && e.claimant == target) }
            line := unflown s.line }
          exec .deferralWaitExpiry s = .next (State.leaveIfDone (State.goOn r { u with pub := added r u })))) ∧
      (f.fallen = true → exec .deferralWaitExpiry s = withdrawn)

/-- R28, R29, R36, R162, R165: a carried frame leaves flight and clears the consecutive-drop count; a carried UPDATE of an owned
region makes its sequence the last one, and a PRESENCE, WAIT, REFUSE, WITHDRAW or REPAIR changes nothing more. That the carried echo
is carrier on the line is the model's choice (log 33). -/
def Obligations.FramesCarried : Prop :=
  ∀ (s : State) (f : Flight) (x : Frame), Sending s f → f.frame = some x →
    let u : State := { s with line := carriedLine s }
    (f.job = .presence ∨ (∃ r p q, f.job = .control (.wait r p q)) ∨ (∃ r p why b, f.job = .control (.refuse r p why b)) ∨
      (∃ r l, f.job = .control (.withdraw r l)) ∨ (∃ r, f.job = .control (.repair r)) →
      exec .attemptCarried s = .next u.leaveIfDone) ∧
    ∀ r, f.job = .update r →
      (f.fallen = false → (s.entry r).role = .owner → exec .attemptCarried s = .next (State.leaveIfDone
        { u with dir := put s.dir r { s.entry r with lastSeq := x.header.seq } })) ∧
      (f.fallen = true ∨ (s.entry r).role ≠ .owner → exec .attemptCarried s = .next u.leaveIfDone)

/-- R66, R73: a carried HANDOVER passes the region to its target and a carried RELEASE orphans it, each with its REGION_LOST
notice; the claimants that the frame does not answer draw a REFUSE. The model's choices: the REFUSEs are appended in the order of
the region's queue (log 34), and the carried echo is carrier on the line (log 33). -/
def Obligations.OwnershipGivenAway : Prop :=
  ∀ (s : State) (f : Flight) (r : Region) (x : Frame), Sending s f → f.frame = some x → f.fallen = false →
    let table := s.claims.table.filter fun e => e.region != r
    (∀ target list, f.job = .control (.handover r) → (s.serving r).handover = .captured target list →
      exec .attemptCarried s = .next (State.leaveIfDone { s with
        dir := put s.dir r { s.entry r with
          owner := some target, role := .peer, lastSeq := x.header.seq, held := false, tenure := .stopped }
        claims := { s.claims with
          table := table
          serve := put s.claims.serve r
            { handover := .idle, forced := false, redirect := .running (s.ctl.config.param 2) } }
        line := refused r .notOwner (some target) ((s.claimants r).filter fun p => !list.contains p)
          { s with line := carriedLine s }
        cmd := noticed [.regionLost r (some target) .handover] s.ctl.ticks s.cmd })) ∧
    (f.job = .control (.release r) → (s.entry r).role = .owner →
      exec .attemptCarried s = .next (State.leaveIfDone { s with
        dir := put s.dir r { s.entry r with
          owner := none, role := .orphan, replica := .valid, lastSeq := x.header.seq, held := false, tenure := .stopped
          staleAge := 0, repair := false, release := .idle }
        pub := { s.pub with set := put s.pub.set r none }
        claims := { s.claims with
          table := table, serve := put s.claims.serve r { s.serving r with forced := false } }
        line := refused r .notOwner none (s.claimants r) { s with line := carriedLine s }
        cmd := noticed [.regionLost r none .release] s.ctl.ticks s.cmd })) ∧
    (f.job = .control (.release r) → (s.entry r).role ≠ .owner →
      exec .attemptCarried s = .next (State.leaveIfDone { s with line := carriedLine s }))

/-- R82, R135: a carried TAKE makes this station the owner, with the grant of its live record and the parked writes applied, or as
an unsought grant. The model's choices: the note of a STALE replica is the frame's, whichever record is live at the carry (log 32),
and the carried echo is carrier on the line (log 33). -/
def Obligations.TakeCarried : Prop :=
  ∀ (s : State) (f : Flight) (r : Region) (x : Frame), Sending s f → f.frame = some x → f.job = .control (.take r) →
    ImageLaw s → (∀ w, w ∈ s.parkedFor r → w.lanes ≠ 0) →
    let gained (n : Notice) : State := { s with
      dir := put s.dir r { s.entry r with
        owner := some s.ctl.ownId, role := .owner, replica := .valid, lastSeq := x.header.seq, held := false
        tenure := if s.ctl.config.param 5 = 0 then .stopped else .running (s.ctl.config.param 5), staleAge := 0, repair := false }
      claims := { s.claims with
        records := put s.claims.records r none
        serve := put s.claims.serve r { s.serving r with redirect := .stopped } }
      line := endedLine r (carriedLine s)
      cmd := noticed [n] s.ctl.ticks s.cmd }
    (s.liveRecord r = none →
      exec .attemptCarried s = .next (State.leaveIfDone ((gained (.unsoughtTake r)).goOn r))) ∧
    ∀ c, s.liveRecord r = some c → ∃ t, Applied r (gained (.grantedTake r c.origin f.staleAtTake)) t ∧
      exec .attemptCarried s = .next (State.leaveIfDone (t.goOn r))

/-- R37, R115, R120, R62: the carried JOIN enters ACTIVE with a PRESENCE due, the timers started, the bar on additions ended, the home
backlog filled, and every region that may be served given to its queue; the carried LEAVE enters OFFLINE.
The model's choices: no home claim is made in the same act (log 28), the regions are served in ascending order (log 34), and the
carried echo is carrier on the line (log 33). -/
def Obligations.JoinAndLeaveCarried : Prop :=
  ∀ (s : State) (f : Flight), Sending s f →
    (f.job = .control .join → s.ctl.mode = .joining → s.ctl.leaveQueued = false →
      let u : State := { s with
        ctl := { s.ctl with
          mode := .active, cause := .joined, presenceDue := true, presence := .running (10 * s.ctl.config.param 0)
          backlog := allRegions.filter fun r => s.ctl.config.inHomeSet r }
        cmd := transited .active .joined s.ctl.ticks s.cmd
        pub := { s.pub with
          refresh := if s.ctl.config.param 6 = 0 then .stopped else .running (100 * s.ctl.config.param 6)
          scan := .running 50, barred := false }
        line := carriedLine s }
      exec .attemptCarried s = .next { u with
        claims := { s.claims with
          serve := Vector.ofFn fun r => if Servable u r then { s.serving r with handover := .queued } else s.serving r }
        line := handAll .handover (allRegions.filter fun r => Servable u r) u.line }) ∧
    (f.job = .control .leave → s.ctl.mode = .leaving →
      ∃ t, exec .attemptCarried s = .next t ∧ WentDown .offline .left .left { s with line := carriedLine s } t)

/-- R43, R44, R76: a carried CLAIM counts, and moves its record from ASKING to ASKED or ORPHAN_WAIT with its timer started; the
CLAIM of a record that has ended draws a WITHDRAW. The model's choices: the carried echo is carrier on the line (log 33), a NORMAL
record in ASKED is changed in its count alone (log 37), and the WITHDRAW is not leaving work (log 39). -/
def Obligations.ClaimCarried : Prop :=
  ∀ (s : State) (f : Flight) (r : Region), Sending s f → f.job = .control (.claim r) →
    let u : State := { s with line := carriedLine s }
    (f.fallen = true ∨ s.liveRecord r = none →
      exec .attemptCarried s = .next (State.leaveIfDone { u with line := withdrawnLine r u })) ∧
    ∀ c, f.fallen = false → s.liveRecord r = some c →
      let n := min 3 (c.attempts + 1)
      (c.state = .asking → c.kind = .normal → exec .attemptCarried s = .next (State.leaveIfDone { u with
        claims := recorded r { c with attempts := n, state := .asked, answer := .running (s.ctl.config.param 2) } s })) ∧
      (c.state = .asking → c.kind = .orphan → exec .attemptCarried s = .next (State.leaveIfDone { u with
        claims := recorded r { c with attempts := n, state := .orphanWait, orphanWait := .running (s.ctl.config.param 4) } s })) ∧
      (c.state ≠ .asking →
        exec .attemptCarried s = .next (State.leaveIfDone { u with claims := recorded r { c with attempts := n } s }))

/-- R44, R76: a dropped CLAIM counts; in ASKING it is sent again until its third, and then its record fails with NO_ANSWER, or
becomes an ORPHAN claim where its owner is not PRESENT; after the LEAVE frame is queued its frames are discarded (R119). The model's
choices: the collision is a burst for the rotation counter, told or not (log 33), and a NORMAL record in ASKED is changed in its
count alone (log 37). -/
def Obligations.ClaimDropped : Prop :=
  ∀ (s : State) (f : Flight) (r : Region), Sending s f → f.job = .control (.claim r) → 16 ≤ f.attempt → s.line.consecutive < 3 →
    let d := droppedState f s
    (f.fallen = true ∨ s.liveRecord r = none → exec .attemptCollision s = .next d.leaveIfDone) ∧
    ∀ c, f.fallen = false → s.liveRecord r = some c →
      let n := min 3 (c.attempts + 1)
      let e : State := { d with claims := recorded r { c with attempts := n } s }
      (c.state ≠ .asking → exec .attemptCollision s = .next e.leaveIfDone) ∧
      (c.state = .asking → n < 3 →
        exec .attemptCollision s = .next (State.leaveIfDone { e with line := wanted r d })) ∧
      (c.state = .asking → n = 3 →
        (c.kind = .normal → (∀ p, (s.entry r).owner = some p → (s.peer p).state ≠ .present) →
          exec .attemptCollision s = .next (State.leaveIfDone { e with
            claims := recorded r (orphanClaim c) s, line := wanted r d })) ∧
        (c.kind = .orphan ∨ (∃ p, (s.entry r).owner = some p ∧ (s.peer p).state = .present) →
          ∃ t, Failed r .noAnswer { c with attempts := n } e t ∧ exec .attemptCollision s = .next t.leaveIfDone))

/-- R30, R67, R73, R83, R119, R120, R160, R161, R162, R165: a collision leaves the frame in flight for its next attempt, whose deferral wait
begins at once where the line is idle already, and the sixteenth drops it: FRAME_DROPPED, the LINE flag, the counts, and then what
its kind asks. That the collision is a burst for the rotation counter, told or not, is the model's choice (log 33). -/
def Obligations.CollisionAndDrop : Prop :=
  ∀ (s : State) (f : Flight), Sending s f →
    (f.attempt < 16 → exec .attemptCollision s = .next { s with line := { s.line with
      collisions := min 65535 (s.line.collisions + 1), burst := .bad
      flight := some { f with
        attempt := f.attempt + 1, transmitting := false
        wait := if s.line.carrier = true then f.wait
          else some (waitLength s.ctl.ownId s.line.rotation (f.attempt + 1) (isUpdate f.job)) } } }) ∧
    (16 ≤ f.attempt → s.line.consecutive < 3 →
      let d := droppedState f s
      (f.job = .presence ∨ (∃ r p q, f.job = .control (.wait r p q)) ∨ (∃ r p why b, f.job = .control (.refuse r p why b)) ∨
        (∃ r l, f.job = .control (.withdraw r l)) ∨ (∃ r, f.job = .control (.repair r)) →
        exec .attemptCollision s = .next d.leaveIfDone) ∧
      (∀ r, f.job = .update r → exec .attemptCollision s = .next (State.leaveIfDone { d with pub := added r d })) ∧
      (∀ r target list, f.job = .control (.handover r) → f.fallen = false → (s.serving r).handover = .captured target list →
        (s.entry r).role = .handing →
        let e : State := { d with
          dir := put s.dir r { s.entry r with role := .owner }
          claims := { s.claims with serve := put s.claims.serve r { s.serving r with handover := .idle } } }
        exec .attemptCollision s = .next (State.leaveIfDone (State.goOn r { e with pub := added r e }))) ∧
      (∀ r, f.job = .control (.take r) →
        (∀ c, s.liveRecord r = some c → c.state = .taking → exec .attemptCollision s = .next (State.leaveIfDone { d with
          claims := recorded r { c with state := .orphanWait, orphanWait := .running (s.ctl.config.param 4) } s })) ∧
        ((∀ c, s.liveRecord r = some c → c.state ≠ .taking) → exec .attemptCollision s = .next d.leaveIfDone)) ∧
      (∀ r, f.job = .control (.release r) → f.fallen = false →
        (s.claimants r ≠ [] → exec .attemptCollision s = .next (State.leaveIfDone (State.goOn r { d with
          dir := put s.dir r { s.entry r with release := .idle } }))) ∧
        (s.claimants r = [] → (s.entry r).role = .owner → (s.serving r).handover = .idle → s.ctl.leaveQueued = false →
          exec .attemptCollision s = .next (State.leaveIfDone { d with
            dir := put s.dir r { s.entry r with release := .queued }
            line := handLine (.release r) d.line })) ∧
        (s.claimants r = [] →
          (s.entry r).role ≠ .owner ∨ (s.serving r).handover ≠ .idle ∨ s.ctl.leaveQueued = true →
          exec .attemptCollision s = .next (State.leaveIfDone { d with
            dir := put s.dir r { s.entry r with release := .idle } }))) ∧
      (∀ r, f.job = .control (.release r) ∨ f.job = .control (.handover r) → f.fallen = true →
        exec .attemptCollision s = .next d.leaveIfDone) ∧
      (f.job = .control .leave → s.ctl.mode = .leaving →
        ∃ t, exec .attemptCollision s = .next t ∧ WentDown .offline .left .left d t))

/-- R122, R123: the fourth consecutive drop, and the drop of the JOIN, isolate the station after the drop is taken: whatever the
frame's kind would restore, publish or hand over is undone, and only a CLAIM that fails leaves its own notices first. That the
collision is a burst for the rotation counter, told or not, is the model's choice (log 33). -/
def Obligations.FourthDropIsolates : Prop :=
  ∀ (s : State) (f : Flight), Sending s f → 16 ≤ f.attempt →
    (f.job = .control .join ∧ s.ctl.mode = .joining) ∨ (3 ≤ s.line.consecutive ∧ s.ctl.mode.transmits = true) →
    let d := droppedState f s
    ((∀ r c, f.job = .control (.claim r) → f.fallen = false → s.liveRecord r = some c →
        c.state ≠ .asking ∨ c.attempts < 2 ∨
          (c.kind = .normal ∧ ∀ p, (s.entry r).owner = some p → (s.peer p).state ≠ .present)) →
      ∃ t, exec .attemptCollision s = .next t ∧ WentDown .isolated .line .isolated d t) ∧
    ∀ r c, f.job = .control (.claim r) → f.fallen = false → s.liveRecord r = some c → c.state = .asking → 2 ≤ c.attempts →
      c.kind = .orphan ∨ (∃ p, (s.entry r).owner = some p ∧ (s.peer p).state = .present) →
      let e : State := { d with claims := recorded r { c with attempts := 3 } s }
      ∃ m t, Failed r .noAnswer { c with attempts := 3 } e m ∧ exec .attemptCollision s = .next t ∧
        WentDown .isolated .line .isolated m t

/-! ### Received bursts: dispatch and the roster (spec/05, spec/09 section 9.8) -/

/-- R92, R103, R121, R161, R171, R173, R176, R177: a bad burst and a good frame are counted in the receiving states alone, nothing
is received while transmitting, a frame without a source goes nowhere, own ID is a clash, and a frame of another revision or from
an INCOMPATIBLE peer reaches the roster only. -/
def Obligations.BurstsAndClashes : Prop :=
  ∀ (s : State) (source : Byte), source = 0 ∨ 32 ≤ source.toNat →
    let own : Byte := BitVec.ofNat 8 s.ctl.ownId.val
    let u : State := { s with line := burstLine own s.line }
    (s.ctl.mode = .reset ∨ s.transmitting = true →
      exec .badBurst s = .next s ∧ exec .idClashFrame s = .next s ∧ exec (.noSourceFrame source) s = .next s ∧
      ∀ c h, Framed c h → exec c s = .next s) ∧
    (s.ctl.mode = .config ∨ s.ctl.mode = .offline ∨ s.ctl.mode = .isolated → s.transmitting = false →
      exec .badBurst s = .next { s with line := { s.line with burst := .bad } } ∧
      exec .idClashFrame s = .next { s with line := { s.line with burst := .good own } } ∧
      exec (.noSourceFrame source) s = .next { s with line := { s.line with burst := .good source } } ∧
      ∀ c h, Framed c h → exec c s = .next { s with line := { s.line with burst := .good h.source } }) ∧
    (s.ctl.mode.receives = true → s.transmitting = false →
      exec .badBurst s = .next { s with line := { s.line with
        burst := .bad, checkErrors := min 65535 (s.line.checkErrors + 1) } } ∧
      exec (.noSourceFrame source) s = .next { s with line := burstLine source s.line } ∧
      (s.ctl.mode = .listen ∨ s.ctl.mode = .joining →
        ∃ t, exec .idClashFrame s = .next t ∧ WentDown .offline .clash .clash u t) ∧
      (s.ctl.mode = .active ∨ s.ctl.mode = .leaving →
        ∃ t, exec .idClashFrame s = .next t ∧ WentDown .isolated .clash .isolated u t) ∧
      ∀ c h p, Carries c h → stationOf h.source = some p → p ≠ s.ctl.ownId →
        h.major ≠ 2 ∨ (s.peer p).state = .incompatible ∨ (∃ code, c = .unknownKindFrame code h) →
        exec c s = .next (heardFrom h p s))

/-- R32, R92 to R98: a PRESENCE or JOIN creates, renews or compares the roster entry of its source, with its notice; of revision 2
and from a compatible peer, a PRESENCE then brings its owned list to the directory and a JOIN a catch-up. -/
def Obligations.PeersAnnounced : Prop :=
  ∀ (s : State) (h : Header) (p : Station) (profile : Profile) (st : Byte) (owned : BitVec 128),
    s.ctl.mode.receives = true → s.transmitting = false → stationOf h.source = some p → p ≠ s.ctl.ownId →
    let heard := announcedBy h p profile (if st = 2 then .leaving else .active) false s
    let joined := announcedBy h p profile .active true s
    (h.major = 2 → (heard.peer p).state ≠ .incompatible →
      exec (.presenceReceived h profile st owned) s = .next (heard.takePresenceList p owned)) ∧
    (h.major ≠ 2 ∨ (heard.peer p).state = .incompatible →
      exec (.presenceReceived h profile st owned) s = .next heard) ∧
    (h.major = 2 → (joined.peer p).state = .present → s.ctl.mode = .active ∨ s.ctl.mode = .leaving →
      exec (.joinReceived h profile) s = .next { joined with pub := addedAll joined }) ∧
    (h.major ≠ 2 ∨ (joined.peer p).state ≠ .present ∨ s.ctl.mode = .listen ∨ s.ctl.mode = .joining →
      exec (.joinReceived h profile) s = .next joined)

/-- R85 to R89: the owned list of a PRESENCE makes its source the owner of every listed region that this station does not own,
orphans the regions of that source that it omits, and meets the conflict rule at the others. That the regions are taken in ascending
order, and the REFUSEs of one region in the order of its queue (logs 12 and 34), and that a CLAIM in flight that has fallen is no longer
pending at a conversion (log 38), are the model's choices. -/
def Obligations.OwnedListTaken : Prop :=
  ∀ (s : State) (p : Station) (owned : BitVec 128), p ≠ s.ctl.ownId →
    ∃ t, s.takePresenceList p owned = t.leaveIfDone ∧ Reconciled p owned s t

/-- R60, R74, R75, R99, R100, R101: a LEAVE and the expiry of a silence timer lose the peer, with PEER_GONE where it was known; its
regions become orphans, its claims leave the table, and the claims toward it go on as ORPHAN claims. That the CLAIMs of orphaned
regions come before those of deferred records, each in ascending order (log 12), and that a CLAIM in flight that has fallen is no longer
pending, so that a fresh one is handed over (log 38), are the model's choices. -/
def Obligations.PeersLost : Prop :=
  ∀ (s : State) (p : Station),
    let gone (byLeave : Bool) (v : State) : State := { v with
      roster := put s.roster p { s.peer p with state := .absent, silence := .stopped }
      cmd := noticed [.peerGone p byLeave] s.ctl.ticks s.cmd }
    ((s.peer p).silence.due = true →
      ∃ t, exec (.silenceTimerExpiry p) s = .next t ∧ Lost p (gone false s) t) ∧
    ∀ h : Header, s.ctl.mode.receives = true → s.transmitting = false → stationOf h.source = some p → p ≠ s.ctl.ownId →
      let u : State := { s with line := burstLine h.source s.line }
      ((s.peer p).state ≠ .absent → ∃ t, exec (.leaveReceived h) s = .next t ∧ Lost p (gone true u) t) ∧
      ((s.peer p).state = .absent → ∃ t, exec (.leaveReceived h) s = .next t ∧ Lost p u t)

/-! ### Received frames at the blocks -/

/-- R56, R57, R58, R76, R77: a CLAIM at an owner is queued and answered as the state asks; elsewhere it is redirected while the redirect
timer runs, or where this station holds an ORPHAN claim, draws no answer, and that claim in ASKING defers to it; its CLAIM is not sent
again (R76). The model's choices: the deferring record loses its CLAIM mark at once (log 14), a CLAIM not yet captured faces R43's
test (log 38), and an ORPHAN region without an ORPHAN claim is redirected too (log 36). -/
def Obligations.ClaimReceived : Prop :=
  ∀ (s : State) (h : Header) (p : Station) (r : Region), Heard s h p → regionOf h.region = some r →
    let u := heardFrom h p s
    let queued : State := { u with claims := { u.claims with table := s.claims.table ++ [{ region := r, claimant := p }] } }
    let room := (s.claimants r).length < 4 ∧ s.claims.table.length < 16
    ((s.entry r).role.owns = true →
      (s.ctl.mode = .active →
        (∀ i, (s.claimants r)[i]? = some p → (∀ j, j < i → (s.claimants r)[j]? ≠ some p) →
          exec (.claimReceived h) s = .next { u with line := replied (.wait r p (i + 1)) u }) ∧
        (p ∉ s.claimants r → room → exec (.claimReceived h) s = .next (State.goOn r
          { queued with line := replied (.wait r p ((s.claimants r).length + 1)) u })) ∧
        (p ∉ s.claimants r → ¬room →
          exec (.claimReceived h) s = .next { u with line := replied (.refuse r p .queueFull (some s.ctl.ownId)) u })) ∧
      (s.ctl.mode = .leaving → s.ctl.leaveQueued = true → exec (.claimReceived h) s = .next u) ∧
      (s.ctl.mode = .leaving → s.ctl.leaveQueued = false →
        ((s.serving r).handover ≠ .idle → p ∈ s.claimants r → exec (.claimReceived h) s = .next u.leaveIfDone) ∧
        ((s.serving r).handover ≠ .idle → p ∉ s.claimants r → room → exec (.claimReceived h) s = .next queued.leaveIfDone) ∧
        ((s.serving r).handover = .idle ∨ (p ∉ s.claimants r ∧ ¬room) → exec (.claimReceived h) s = .next (State.leaveIfDone
          { u with line := replied (.refuse r p .leaving (some s.ctl.ownId)) u }))) ∧
      (s.ctl.mode = .listen ∨ s.ctl.mode = .joining →
        (p ∉ s.claimants r → room → exec (.claimReceived h) s = .next queued) ∧
        (p ∈ s.claimants r ∨ ¬room → exec (.claimReceived h) s = .next u))) ∧
    ((s.entry r).role.owns = false →
      let v : State := if (s.serving r).redirect.isRunning = true then
        { u with line := replied (.refuse r p .notOwner (s.entry r).owner) u } else u
      (∀ c, s.liveRecord r = some c → c.kind = .orphan →
        (c.state = .asking → exec (.claimReceived h) s = .next { u with
          claims := recorded r { c with
            state := .deferred, deferredTo := some p, orphanWait := .running (2 * s.ctl.config.param 4) } s
          line := unaskedLine r u.line }) ∧
        (c.state ≠ .asking → exec (.claimReceived h) s = .next u)) ∧
      ((∀ c, s.liveRecord r = some c → c.kind = .normal) → exec (.claimReceived h) s = .next v))

/-- R46, R84: a WAIT that names this station queues its record at the source, makes an ORPHAN claim that has not taken a NORMAL one,
and draws a WITHDRAW where no record stands; one that names another station is ignored. That the answered record's CLAIM mark is
cleared at once (log 14), the CLAIM in flight of an ORPHAN record falls once captured (logs 15 and 38), and the WITHDRAW is not leaving
work (log 39), are the model's choices. -/
def Obligations.WaitReceived : Prop :=
  ∀ (s : State) (h : Header) (p : Station) (r : Region) (claimant position : Byte), Heard s h p → regionOf h.region = some r →
    let u := heardFrom h p s
    (stationOf claimant ≠ some s.ctl.ownId → exec (.waitReceived h claimant position) s = .next u) ∧
    (stationOf claimant = some s.ctl.ownId →
      (∀ c, s.liveRecord r = some c → c.kind = .normal → exec (.waitReceived h claimant position) s = .next { u with
        claims := recorded r { c with
          state := .queued, answer := .stopped, attempts := 0, queuedAt := some p
          patience := if c.patience = .stopped then .running (100 * s.ctl.config.param 3) else c.patience } s
        line := { u.line with marks := u.line.marks.filter fun m => m != .claim r } }) ∧
      (∀ c, s.liveRecord r = some c → c.kind = .orphan → c.state ≠ .taking →
        exec (.waitReceived h claimant position) s = .next { u with
          claims := recorded r { c with
            kind := .normal, state := .queued, attempts := 0, queuedAt := some p, orphanWait := .stopped, deferredTo := none
            patience := .running (100 * s.ctl.config.param 3) } s
          line := unaskedLine r u.line }) ∧
      (∀ c, s.liveRecord r = some c → c.kind = .orphan → c.state = .taking →
        exec (.waitReceived h claimant position) s = .next u) ∧
      (s.closing r = true ∨ (s.liveRecord r = none ∧ (s.entry r).role.owns = true) →
        exec (.waitReceived h claimant position) s = .next u) ∧
      (s.record r = none → (s.entry r).role.owns = false →
        exec (.waitReceived h claimant position) s = .next { u with line := withdrawnLine r u }))

/-- R47, R48, R84, R178: a REFUSE that names this station redirects its claim to a live owner, makes it an ORPHAN claim, has it asked
again, or fails it, by reason and by record; one that names another station, finds no live record or gives no reason is ignored.
That the answered ORPHAN record's CLAIM mark is cleared at once (log 14), and its CLAIM in flight falls once captured (logs 15 and
38), are the model's choices. -/
def Obligations.RefuseReceived : Prop :=
  ∀ (s : State) (h : Header) (p : Station) (r : Region) (claimant believed : Byte), Heard s h p → regionOf h.region = some r →
    let u := heardFrom h p s
    (∀ why : Byte, stationOf claimant ≠ some s.ctl.ownId ∨ s.liveRecord r = none ∨ why = 0 ∨ 4 ≤ why.toNat →
      exec (.refuseReceived h claimant why believed) s = .next u) ∧
    ∀ c : ClaimRecord, stationOf claimant = some s.ctl.ownId → s.liveRecord r = some c → s.ctl.leaveQueued = false →
    let live (b : Station) := stationOf believed = some b ∧ b ≠ s.ctl.ownId ∧ b ≠ p ∧ (s.peer b).state = .present
    let led (b : Station) : State := { u with dir := put s.dir r { s.entry r with owner := some b, role := .peer } }
    let fails := ∃ t, exec (.refuseReceived h claimant 3 believed) s = .next t ∧ Failed r .refused c u t
    (c.kind = .normal →
      (c.state = .queued → c.queuedAt ≠ some p → (s.entry r).owner ≠ some p → ∀ why : Byte,
        exec (.refuseReceived h claimant why believed) s = .next u) ∧
      (c.state = .asking ∨ c.state = .asked ∨ (c.state = .queued ∧ (c.queuedAt = some p ∨ (s.entry r).owner = some p)) →
        ((∀ b, ¬live b) → exec (.refuseReceived h claimant 1 believed) s = .next (orphanedClaim r u)) ∧
        (∀ b, live b →
          (c.state = .asking → exec (.refuseReceived h claimant 1 believed) s = .next (led b)) ∧
          (c.state ≠ .asking → c.attempts < 3 → exec (.refuseReceived h claimant 1 believed) s = .next { led b with
            claims := recorded r { c with state := .asking, answer := .stopped } s, line := wanted r u }) ∧
          (c.state ≠ .asking → 3 ≤ c.attempts →
            ∃ t, exec (.refuseReceived h claimant 1 believed) s = .next t ∧ Failed r .refused c (led b) t)) ∧
        (c.state = .asking → exec (.refuseReceived h claimant 2 believed) s = .next u) ∧
        (c.state ≠ .asking → c.attempts < 3 → exec (.refuseReceived h claimant 2 believed) s = .next { u with
          claims := recorded r { c with state := .asked, answer := .running (4 * s.ctl.config.param 2) } s }) ∧
        (c.state ≠ .asking → 3 ≤ c.attempts →
          ∃ t, exec (.refuseReceived h claimant 2 believed) s = .next t ∧ Failed r .refused c u t) ∧
        fails)) ∧
    (c.kind = .orphan →
      ((∀ b, ¬live b) → exec (.refuseReceived h claimant 1 believed) s = .next u) ∧
      (∀ b, live b → exec (.refuseReceived h claimant 1 believed) s = .next (normalizedClaim r (led b))) ∧
      (c.state = .taking → exec (.refuseReceived h claimant 2 believed) s = .next u ∧
        exec (.refuseReceived h claimant 3 believed) s = .next u) ∧
      (c.state ≠ .taking →
        exec (.refuseReceived h claimant 2 believed) s = .next { u with
          claims := recorded r { c with
            kind := .normal, state := .asked, attempts := 0, orphanWait := .stopped, deferredTo := none
            answer := .running (4 * s.ctl.config.param 2) } s
          line := unaskedLine r u.line } ∧
        fails))

/-- R33, R59, R177: a WITHDRAW removes its claimant's entry at an owner and a REPAIR gives an OWNER region a full addition; both are
ignored elsewhere, as is every frame whose region byte names no region. -/
def Obligations.WithdrawAndRepairReceived : Prop :=
  ∀ (s : State) (h : Header) (p : Station), Heard s h p →
    let u := heardFrom h p s
    (∀ r, regionOf h.region = some r →
      ((s.entry r).role.owns = true → exec (.withdrawReceived h) s = .next { u with claims := { s.claims with
        table := s.claims.table.filter fun e => !(e.region == r && e.claimant == p) } }) ∧
      ((s.entry r).role.owns = false → exec (.withdrawReceived h) s = .next u) ∧
      ((s.entry r).role = .owner → exec (.repairReceived h) s = .next { u with pub := added r u }) ∧
      ((s.entry r).role ≠ .owner → exec (.repairReceived h) s = .next u)) ∧
    (regionOf h.region = none → ∀ c, Carries c h → exec c s = .next u)

/-- R13, R17, R18, R51, R52, R68, R135, R178: a HANDOVER that names this station makes it the owner of a region it did not own, with
the frame's content, the claim table seeded in list order, and the claim granted; at an owner it draws at most a full addition. -/
def Obligations.HandoverGained : Prop :=
  ∀ (s : State) (h : Header) (p : Station) (r : Region) (newOwner count : Byte) (ids : Vector Byte 3) (content : Vector Byte 128),
    Heard s h p → regionOf h.region = some r →
    let u := heardFrom h p s
    let handover := exec (.handoverReceived h newOwner count ids content) s
    (stationOf newOwner = none ∨ stationOf newOwner = some p ∨ 3 < count.toNat → handover = .next u) ∧
    (stationOf newOwner = some s.ctl.ownId → count.toNat ≤ 3 →
      ((s.entry r).role.owns = true → newer h.seq (s.entry r).lastSeq = true → handover = .next { u with pub := added r u }) ∧
      ((s.entry r).role.owns = true → newer h.seq (s.entry r).lastSeq = false → handover = .next u) ∧
      ((s.entry r).role.owns = false → ImageLaw s → (∀ w, w ∈ s.parkedFor r → w.lanes ≠ 0) →
        ∃ v : State,
          (∀ x, imageRead v.image x =
            if x / 128 = r.val then content.toList.getD (x % 128) 0 else imageRead s.image x) ∧
          { v with image := s.image } = { u with
            dir := put s.dir r { s.entry r with
              owner := some s.ctl.ownId, role := .owner, replica := .valid, lastSeq := h.seq, held := false, staleAge := 0
              repair := false
              tenure := if s.ctl.config.param 5 = 0 then .stopped else .running (s.ctl.config.param 5) }
            claims := { s.claims with serve := put s.claims.serve r { s.serving r with redirect := .stopped } } } ∧
          let w := v.seed r (ids.toList.take count.toNat)
          let freed (n : Notice) : State := { w with
            claims := { w.claims with records := put w.claims.records r none }
            line := endedLine r w.line, cmd := noticed [n] s.ctl.ticks s.cmd }
          (s.liveRecord r = none →
            handover = .next (State.leaveIfDone (State.goOn r (freed (.unsoughtHandover r p))))) ∧
          ∀ c, s.liveRecord r = some c → ∃ t, Applied r (freed (.grantedHandover r p c.origin)) t ∧
            handover = .next (State.leaveIfDone (t.goOn r)))) ∧
    ∀ v : State, v.seed r [] = v ∧ (∀ b bs, v.seed r (b :: bs) = (v.seed r [b]).seed r bs) ∧
      ∀ b, (stationOf b = none → v.seed r [b] = v) ∧
        ∀ q, stationOf b = some q →
          (q = v.ctl.ownId ∨ (v.peer q).state ≠ .present ∨ q ∈ v.claimants r → v.seed r [b] = v) ∧
          (q ≠ v.ctl.ownId → (v.peer q).state = .present → q ∉ v.claimants r →
            (v.claims.table.length < 16 → v.seed r [b] = { v with
              claims := { v.claims with table := v.claims.table ++ [{ region := r, claimant := q }] } }) ∧
            (16 ≤ v.claims.table.length → v.ctl.mode = .active ∨ v.ctl.mode = .leaving →
              v.seed r [b] = { v with line := replied (.refuse r q .queueFull (some v.ctl.ownId)) v }) ∧
            (16 ≤ v.claims.table.length → v.ctl.mode = .listen ∨ v.ctl.mode = .joining → v.seed r [b] = v))

/-- R19, R20, R21, R75, R78: a HANDOVER to another station and a TAKE, unless a copy, bring their content and their owner to a region
that this station does not own, and a RELEASE of its owner orphans it; the claim for it goes on toward what is now so. That a CLAIM in
flight that has fallen is no longer pending, so that the converted record has a fresh one, is the model's choice (log 38). -/
def Obligations.OwnersFollowed : Prop :=
  ∀ (s : State) (h : Header) (p : Station) (r : Region) (newOwner count : Byte) (ids : Vector Byte 3) (content : Vector Byte 128),
    Heard s h p → regionOf h.region = some r → ImageLaw s →
    let u := heardFrom h p s
    let follows (x : Station) (out : Host.Outcome State Fault Refusal) : Prop :=
      ((s.entry r).owner = some x → newer h.seq (s.entry r).lastSeq = false → out = .next u) ∧
      ((s.entry r).owner ≠ some x ∨ newer h.seq (s.entry r).lastSeq = true → ∃ v : State,
        (∀ y, imageRead v.image y =
          if y / 128 = r.val then content.toList.getD (y % 128) 0 else imageRead s.image y) ∧
        ImageLaw v ∧
        { v with image := s.image } = { u with
          dir := put s.dir r { s.entry r with
            owner := some x, role := .peer, replica := .valid, lastSeq := h.seq, staleAge := 0, repair := false } } ∧
        out = .next (normalizedClaim r v))
    (∀ x, (s.entry r).role.owns = false → stationOf newOwner = some x → x ≠ p → x ≠ s.ctl.ownId → count.toNat ≤ 3 →
      follows x (exec (.handoverReceived h newOwner count ids content) s)) ∧
    ((s.entry r).role.owns = false → follows p (exec (.takeReceived h content) s)) ∧
    ((s.entry r).role = .peer → (s.entry r).owner = some p → exec (.releaseReceived h) s = .next (orphanedClaim r { u with
      dir := put s.dir r { orphanEntry (s.entry r) with lastSeq := h.seq } })) ∧
    ((s.entry r).role ≠ .peer ∨ (s.entry r).owner ≠ some p → exec (.releaseReceived h) s = .next u)

/-- R15, R16, R78, R178: an UPDATE of the owner is applied by its class, and one of any other station makes that station the owner; a
partial one leaves or makes the replica STALE where content may be missing. That a CLAIM in flight that has fallen is no longer
pending, so that a converted record has a fresh one, is the model's choice (log 38). -/
def Obligations.UpdatesTaken : Prop :=
  ∀ (s : State) (h : Header) (p : Station) (r : Region) (offset length : Byte) (data : List Byte), Heard s h p →
    regionOf h.region = some r → data.length = length.toNat → data.length ≤ 143 → (s.entry r).role.owns = false → ImageLaw s →
    let u := heardFrom h p s
    let update := exec (.updateReceived h offset length data) s
    let written (v : State) : Prop := ImageLaw v ∧ ∀ x, imageRead v.image x =
      if 128 * r.val + offset.toNat ≤ x ∧ x < 128 * r.val + offset.toNat + length.toNat then
        data.getD (x - (128 * r.val + offset.toNat)) 0
      else imageRead s.image x
    let e := s.entry r
    let valid : DirEntry := { e with replica := .valid, staleAge := 0, repair := false, lastSeq := h.seq }
    let stale : DirEntry := { staleEntry e with lastSeq := h.seq }
    let notices (d : StaleDetail) : List Notice := if e.replica = .valid then [.regionStale r (some p) d] else []
    (length = 0 ∨ 128 < offset.toNat + length.toNat → update = .next u) ∧
    (length ≠ 0 → offset.toNat + length.toNat ≤ 128 →
      (e.owner = some p →
        (classify h.seq e.lastSeq = .same ∨ classify h.seq e.lastSeq = .older → update = .next u) ∧
        (classify h.seq e.lastSeq = .next ∨ classify h.seq e.lastSeq = .gap → ∃ t, update = .next t ∧ written t ∧
          (length = 128 → { t with image := s.image } = { u with dir := put s.dir r valid }) ∧
          (length ≠ 128 → classify h.seq e.lastSeq = .next →
            { t with image := s.image } = { u with dir := put s.dir r { e with lastSeq := h.seq } }) ∧
          (length ≠ 128 → classify h.seq e.lastSeq = .gap → { t with image := s.image } = { u with
            dir := put s.dir r stale, cmd := noticed (notices .gap) s.ctl.ticks s.cmd }))) ∧
      (e.owner ≠ some p → ∃ v : State, update = .next (normalizedClaim r v) ∧ written v ∧
        (length = 128 →
          { v with image := s.image } = { u with dir := put s.dir r { valid with owner := some p, role := .peer } }) ∧
        (length ≠ 128 → { v with image := s.image } = { u with
          dir := put s.dir r { stale with owner := some p, role := .peer }
          cmd := noticed (notices .ownerChange) s.ctl.ticks s.cmd })))

/-- R14, R87, R88, R89: an UPDATE or TAKE for an owned region, and a HANDOVER of it to another station, meet the conflict rule: the
lower ID keeps the region, the higher yields it, and nothing of the frame's content is applied. That the REFUSEs of the region yielded
are appended in the order of its queue is the model's choice (log 34). -/
def Obligations.ConflictsSettled : Prop :=
  ∀ (s : State) (h : Header) (p : Station) (r : Region), Heard s h p → regionOf h.region = some r →
    (s.entry r).role.owns = true →
    let u := heardFrom h p s
    let settled (rival : Station) (out : Host.Outcome State Fault Refusal) : Prop :=
      (s.ctl.ownId < rival → out = .next (State.leaveIfDone (won r rival u))) ∧
      (rival < s.ctl.ownId → out = .next (State.leaveIfDone (yielded r rival h.seq u)))
    (∀ (offset length : Byte) (data : List Byte), data.length = length.toNat → data.length ≤ 143 → length ≠ 0 →
      offset.toNat + length.toNat ≤ 128 → settled p (exec (.updateReceived h offset length data) s)) ∧
    (∀ content, settled p (exec (.takeReceived h content) s)) ∧
    ∀ x newOwner (count : Byte) ids content, stationOf newOwner = some x → x ≠ p → x ≠ s.ctl.ownId → count.toNat ≤ 3 →
      settled x (exec (.handoverReceived h newOwner count ids content) s)

/-! ### Timers and the home backlog -/

/-- R31, R113, R115, R119: the listen timer hands the JOIN over, the leave timer queues the LEAVE frame, the presence timer makes a
PRESENCE due and the refresh timer publishes every OWNER region, the last two restarting. -/
def Obligations.StationTimersExpire : Prop :=
  ∀ s : State,
    (s.ctl.mode = .listen → s.ctl.listen.due = true → s.ctl.leaveQueued = false →
      exec .listenTimerExpiry s = .next { s with
        ctl := { s.ctl with mode := .joining, cause := .listened, listen := .stopped }
        cmd := transited .joining .listened s.ctl.ticks s.cmd
        line := handLine .join s.line }) ∧
    (s.ctl.mode = .leaving → s.ctl.leave.due = true → s.ctl.leaveQueued = false →
      ∃ t, exec .leaveTimerExpiry s = .next t ∧
        t.line = { s.line with queue := [{ frame := .leave, fallen := false }], marks := [] } ∧
        t.ctl = { s.ctl with leave := .stopped, presence := .stopped, presenceDue := false, leaveQueued := true } ∧
        (∀ r, t.pubEntry r = none) ∧ { t.pub with set := s.pub.set } =
          { s.pub with refresh := .stopped, scan := .stopped, barred := true } ∧
        (∀ r, t.entry r = if (s.entry r).release = .queued ∧ s.waiting (.release r) = true then
          { s.entry r with release := .idle } else s.entry r) ∧
        (∀ r, t.serving r = if (s.serving r).handover = .queued ∧ s.waiting (.handover r) = true then
          { s.serving r with handover := .idle } else s.serving r) ∧
        (∀ r, t.record r = s.liveRecord r) ∧ t.claims.table = s.claims.table ∧
        { t with dir := s.dir, pub := s.pub, claims := s.claims, ctl := s.ctl, line := s.line } = s) ∧
    (s.ctl.presence.due = true → exec .presenceTimerExpiry s = .next { s with
      ctl := { s.ctl with presenceDue := true, presence := .running (10 * s.ctl.config.param 0) } }) ∧
    (s.pub.refresh.due = true → exec .refreshTimerExpiry s = .next { s with
      pub := { addedAll s with refresh := .running (100 * s.ctl.config.param 6) } })

/-- R34, R35: a scan selects, in ascending region order, every PEER region whose replica has been STALE for the repair delay under a
PRESENT owner; each gets a REPAIR queued, its stale age restarted and its mark set while the queue has room, and is else
suppressed, counted and left as it was. -/
def Obligations.ScanTimerExpires : Prop :=
  ∀ s : State, s.pub.scan.due = true → s.ctl.leaveQueued = false → s.line.queue.length ≤ 16 →
    let selected (r : Region) : Bool :=
      (s.entry r).role == .peer && (s.entry r).replica == .stale && 2 * (10 * s.ctl.config.param 0) ≤ (s.entry r).staleAge &&
        match (s.entry r).owner with
        | some p => (s.peer p).state == .present
        | none => false
    let all := allRegions.filter selected
    let taken := all.take (16 - s.line.queue.length)
    ∃ t, exec .scanTimerExpiry s = .next t ∧
      (∀ r, t.entry r = if r ∈ taken then { s.entry r with staleAge := 0, repair := true } else s.entry r) ∧
      t.line = { s.line with
        queue := s.line.queue ++ taken.map fun r => { frame := .repair r, fallen := false }
        suppressed := if all.length ≤ 16 - s.line.queue.length then s.line.suppressed
          else min 65535 (s.line.suppressed + (all.length - (16 - s.line.queue.length))) } ∧
      t.pub = { s.pub with scan := .running 50 } ∧
      { t with dir := s.dir, line := s.line, pub := s.pub } = s

/-- R9, R45, R49, R58, R62, R79, R80: what the timers of a region and of its record do when they expire. A tenure timer that expires
serves its region where the serving condition then holds, and else does nothing more, in every state of the station. That a CLAIM in
flight that has fallen is no longer pending, so that a record back in ASKING has a fresh one, is the model's choice (log 38). -/
def Obligations.ClaimTimersExpire : Prop :=
  ∀ (s : State) (r : Region),
    ((s.entry r).tenure.due = true → (s.ctl.leaveQueued = true → s.ctl.mode = .leaving) →
      let u : State := { s with dir := put s.dir r { s.entry r with tenure := .stopped } }
      (Servable u r → exec (.tenureTimerExpiry r) s = .next { u with
        claims := { s.claims with serve := put s.claims.serve r { s.serving r with handover := .queued } }
        line := handLine (.handover r) s.line }) ∧
      (¬Servable u r → exec (.tenureTimerExpiry r) s = .next u)) ∧
    ((s.serving r).redirect.due = true → exec (.redirectTimerExpiry r) s = .next { s with
      claims := { s.claims with serve := put s.claims.serve r { s.serving r with redirect := .stopped } } }) ∧
    ∀ c, s.liveRecord r = some c → s.ctl.leaveQueued = false →
      (c.kind = .normal → c.state = .asked → c.answer.due = true →
        (c.attempts < 3 → exec (.answerTimerExpiry r) s = .next { s with
          claims := recorded r { c with state := .asking, answer := .stopped } s, line := claimLine r s }) ∧
        (3 ≤ c.attempts → (∀ p, (s.entry r).owner = some p → (s.peer p).state ≠ .present) →
          exec (.answerTimerExpiry r) s = .next { s with
            claims := recorded r (orphanClaim c) s, line := claimLine r s }) ∧
        (3 ≤ c.attempts → (∃ p, (s.entry r).owner = some p ∧ (s.peer p).state = .present) →
          ∃ t, exec (.answerTimerExpiry r) s = .next t ∧ Failed r .noAnswer c s t)) ∧
      (c.kind = .normal → c.patience.due = true →
        ∃ t, exec (.patienceTimerExpiry r) s = .next t ∧ Failed r .patience c s t) ∧
      (c.kind = .orphan → c.orphanWait.due = true →
        (c.state = .orphanWait → exec (.orphanWaitTimerExpiry r) s = .next { s with
          claims := recorded r { c with state := .taking, orphanWait := .stopped } s, line := handLine (.take r) s.line }) ∧
        (c.state = .deferred → c.attempts < 3 → exec (.orphanWaitTimerExpiry r) s = .next { s with
          claims := recorded r { c with state := .asking, orphanWait := .stopped, deferredTo := none } s
          line := claimLine r s }) ∧
        (c.state = .deferred → 3 ≤ c.attempts →
          ∃ t, exec (.orphanWaitTimerExpiry r) s = .next t ∧ Failed r .noAnswer c s t))

/-- R116, R42: the lowest region of the home backlog leaves it with a claim of origin HOME, or without one where it is owned or
claimed already; with no slot free the backlog waits. -/
def Obligations.HomeBacklog : Prop :=
  ∀ (s : State) (r : Region) (rest : List Region), s.ctl.mode = .active → s.ctl.leaveQueued = false →
    s.ctl.backlog = r :: rest →
    ((s.entry r).role.owns = true ∨ (s.liveRecord r).isSome = true → exec .homeClaim s = .next { s with
      ctl := { s.ctl with backlog := rest } }) ∧
    (Claimable s r → exec .homeClaim s = .next { claimed r .home s with ctl := { s.ctl with backlog := rest } }) ∧
    ((s.entry r).role.owns = false → s.liveRecord r = none → ¬Claimable s r → exec .homeClaim s = .next s)

/-! ### Sequences, frames on the line, and the laws -/

/-- R12: the class of a received sequence s against the last sequence L is that of d = s - L modulo 65 536. -/
def Obligations.SequenceClasses : Prop :=
  ∀ (L : Half) (d : Nat), d < 65536 →
    let s : Half := BitVec.ofNat 16 (L.toNat + d)
    (d = 0 ↔ classify s L = .same) ∧ (d = 1 ↔ classify s L = .next) ∧ (2 ≤ d ∧ d ≤ 32767 ↔ classify s L = .gap) ∧
      (32768 ≤ d ↔ classify s L = .older)

/-- Spec/10 section 10.1, R171, R172, R176: every frame of this revision that another station sends is heard, from the bits of its
burst, as the command that carries exactly its fields; at the station of its own ID it is an ID clash. -/
def Obligations.BurstsSpellTheirFrames : Prop :=
  ∀ (f : Frame) (own p : Station), f.header.major = 2 → stationOf f.header.source = some p →
    (∀ o l data, f.payload = .update o l data → data.length = l.toNat ∧ data.length ≤ 143) →
    (p ≠ own → bitsCommand own (lineBits f.burst) = f.heard) ∧
    (p = own → bitsCommand own (lineBits f.burst) = .idClashFrame)

/-- The Image Store keeps its canonical form, and no collection and no count passes its limit, over every step. -/
def Obligations.StepsKeepImageAndBounds : Prop :=
  ∀ s t : State, step s = .next t → (ImageLaw s → ImageLaw t) ∧ (BoundsLaw s → BoundsLaw t)

/-- R3, R4, R6 to R9, R22, R41, R55, R61, R81, R90, R131: what stands at a region agrees with its role over every step. -/
def Obligations.StepsKeepOwnership : Prop :=
  ∀ s t : State, OwnershipLaw s → step s = .next t → OwnershipLaw t

/-- R38, R69, R104, R123, R124, R175: outside LISTEN, JOINING, ACTIVE and LEAVING the station stays quiet, over every step. -/
def Obligations.StepsKeepQuiet : Prop :=
  ∀ s t : State, QuietLaw s → step s = .next t → QuietLaw t

/-- R37, R119: after the LEAVE frame is queued nothing else is queued, marked or published in LEAVING, and nothing is published until
the station is next ACTIVE, over every step. -/
def Obligations.StepsKeepLeaving : Prop :=
  ∀ s t : State, LeaveLaw s → step s = .next t → LeaveLaw t

/-- Every law holds at reset. -/
def Obligations.LawsHoldAtReset : Prop :=
  ImageLaw State.reset ∧ BoundsLaw State.reset ∧ OwnershipLaw State.reset ∧ QuietLaw State.reset ∧ LeaveLaw State.reset
end

