-- ==== Sys2Proof/Laws/Tables.lean ====
section
/-! SUPPORT. Laws of the fixed tables (`pick` and `put`) and of an act taken for every region. -/

namespace Sys2Proof

variable {α β : Type} {n : Nat}

@[simp] theorem pick_put_same (v : Vector α n) (i : Fin n) (a : α) : pick (put v i a) i = a := by simp [pick, put]

theorem pick_put_other (v : Vector α n) {i j : Fin n} (a : α) (h : j ≠ i) : pick (put v i a) j = pick v j := by
  have : i.val ≠ j.val := fun e => h (Fin.ext e.symm)
  simp [pick, put, this]

/-- Reading a table after one write, in one equation. -/
theorem pick_put (v : Vector α n) (i j : Fin n) (a : α) : pick (put v i a) j = if j = i then a else pick v j := by
  split
  · next h => subst h; simp
  · next h => exact pick_put_other v a h

@[simp] theorem pick_ofFn (f : Fin n → α) (i : Fin n) : pick (Vector.ofFn f) i = f i := by simp [pick]

@[simp] theorem pick_map (f : α → β) (v : Vector α n) (i : Fin n) : pick (v.map f) i = f (pick v i) := by simp [pick]

@[simp] theorem pick_replicate (a : α) (i : Fin n) : pick (Vector.replicate n a) i = a := by simp [pick]

/-- Two tables that agree everywhere are equal. -/
theorem pick_ext {v w : Vector α n} (h : ∀ i, pick v i = pick w i) : v = w :=
  Vector.ext fun i hi => h ⟨i, hi⟩

/-- Writing back what a table holds changes nothing. -/
@[simp] theorem put_pick (v : Vector α n) (i : Fin n) : put v i (pick v i) = v :=
  pick_ext fun j => by rw [pick_put]; split <;> simp_all

/-- The last of two writes at one place stands. -/
@[simp] theorem put_put (v : Vector α n) (i : Fin n) (a b : α) : put (put v i a) i b = put v i b :=
  pick_ext fun j => by rw [pick_put, pick_put, pick_put]; split <;> rfl

@[simp] theorem mem_allRegions (r : Region) : r ∈ allRegions := List.mem_finRange r

theorem satSucc_eq (k : Nat) : satSucc k = min 65535 (k + 1) := by unfold satSucc; split <;> omega

theorem satSucc_le (k : Nat) : satSucc k ≤ 65535 := by unfold satSucc; split <;> omega

namespace Machine

/-- What every act for a region keeps, the acts for all regions together keep. -/
theorem State.forRegions_keeps {P : State → Prop} {f : Region → State → State} (h : ∀ r s, P s → P (f r s)) (s : State)
    (hs : P s) : P (s.forRegions f) := by
  unfold State.forRegions
  generalize allRegions = l
  induction l generalizing s with
  | nil => exact hs
  | cons r l ih => exact ih _ (h r s hs)

/-- A part of the state that no act for a region touches, the acts for all regions together do not touch. -/
theorem State.forRegions_eq {γ : Type} (g : State → γ) {f : Region → State → State} (h : ∀ r s, g (f r s) = g s) (s : State) :
    g (s.forRegions f) = g s :=
  State.forRegions_keeps (P := fun t => g t = g s) (fun r t ht => (h r t).trans ht) s rfl

/-- Where the act for a region sets something there, and the acts for other regions keep it, it is set after all of them. -/
theorem State.forRegions_sets {Q : Region → State → Prop} {f : Region → State → State} (hset : ∀ r s, Q r (f r s))
    (hkeep : ∀ r q s, Q q s → Q q (f r s)) (s : State) (q : Region) : Q q (s.forRegions f) := by
  have key : ∀ (l : List Region) (s : State), q ∈ l → Q q (l.foldl (fun s r => f r s) s) := by
    intro l
    induction l with
    | nil => intro s hq; cases hq
    | cons r l ih =>
      intro s hq
      by_cases hl : q ∈ l
      · exact ih _ hl
      · have hr : q = r := by simpa [hl] using hq
        subst hr
        have keep : ∀ (l : List Region) (s : State), Q q s → Q q (l.foldl (fun s r => f r s) s) := by
          intro l
          induction l with
          | nil => intro s h; exact h
          | cons r l ih => intro s h; exact ih _ (hkeep r q s h)
        exact keep l _ (hset q s)
  exact key allRegions s (mem_allRegions q)

/-- What holds of no region, and goes on from the regions passed to the next one, holds after all of them. -/
theorem State.forRegions_induct {P : List Region → State → Prop} {f : Region → State → State} (s : State) (h0 : P [] s)
    (hs : ∀ done r t, r ∉ done → P done t → P (done ++ [r]) (f r t)) : P allRegions (s.forRegions f) := by
  have key : ∀ (l done : List Region) (t : State), (done ++ l).Nodup → P done t →
      P (done ++ l) (l.foldl (fun s r => f r s) t) := by
    intro l
    induction l with
    | nil => intro done t _ h; simpa using h
    | cons r l ih =>
      intro done t hn h
      have hr : r ∉ done := fun hd => (List.nodup_append.1 hn).2.2 r hd r (List.mem_cons_self ..) rfl
      have g := ih (done ++ [r]) (f r t) (by simpa using hn) (hs done r t hr h)
      simpa using g
  exact key allRegions [] s (List.nodup_finRange 128) h0

end Machine

end Sys2Proof
end

