-- ==== Sys2Proof/Laws/State.lean ====
section
/-! SUPPORT. One lemma for each field of State and each plain update of it, and for each reading by region or station that the
update leaves alone; what a write sets is read back by the lemmas at the end. All but those are true by definition. -/

namespace Sys2Proof.Machine

/-! `State.setEntry` -/

@[simp] theorem State.setEntry_port (s : State) (r : Region) (e : DirEntry) : (s.setEntry r e).port = s.port := rfl
@[simp] theorem State.setEntry_image (s : State) (r : Region) (e : DirEntry) : (s.setEntry r e).image = s.image := rfl
@[simp] theorem State.setEntry_pub (s : State) (r : Region) (e : DirEntry) : (s.setEntry r e).pub = s.pub := rfl
@[simp] theorem State.setEntry_claims (s : State) (r : Region) (e : DirEntry) : (s.setEntry r e).claims = s.claims := rfl
@[simp] theorem State.setEntry_roster (s : State) (r : Region) (e : DirEntry) : (s.setEntry r e).roster = s.roster := rfl
@[simp] theorem State.setEntry_ctl (s : State) (r : Region) (e : DirEntry) : (s.setEntry r e).ctl = s.ctl := rfl
@[simp] theorem State.setEntry_parked (s : State) (r : Region) (e : DirEntry) : (s.setEntry r e).parked = s.parked := rfl
@[simp] theorem State.setEntry_cmd (s : State) (r : Region) (e : DirEntry) : (s.setEntry r e).cmd = s.cmd := rfl
@[simp] theorem State.setEntry_line (s : State) (r : Region) (e : DirEntry) : (s.setEntry r e).line = s.line := rfl
@[simp] theorem State.setEntry_pending (s : State) (r : Region) (e : DirEntry) : (s.setEntry r e).pending = s.pending := rfl
@[simp] theorem State.setEntry_serving (s : State) (r : Region) (e : DirEntry) (q : Region) : (s.setEntry r e).serving q = s.serving q := rfl
@[simp] theorem State.setEntry_record (s : State) (r : Region) (e : DirEntry) (q : Region) : (s.setEntry r e).record q = s.record q := rfl
@[simp] theorem State.setEntry_peer (s : State) (r : Region) (e : DirEntry) (q : Station) : (s.setEntry r e).peer q = s.peer q := rfl
@[simp] theorem State.setEntry_pubEntry (s : State) (r : Region) (e : DirEntry) (q : Region) : (s.setEntry r e).pubEntry q = s.pubEntry q := rfl
@[simp] theorem State.setEntry_claimants (s : State) (r : Region) (e : DirEntry) (q : Region) : (s.setEntry r e).claimants q = s.claimants q := rfl

/-! `State.setServing` -/

@[simp] theorem State.setServing_port (s : State) (r : Region) (e : ServeEntry) : (s.setServing r e).port = s.port := rfl
@[simp] theorem State.setServing_image (s : State) (r : Region) (e : ServeEntry) : (s.setServing r e).image = s.image := rfl
@[simp] theorem State.setServing_dir (s : State) (r : Region) (e : ServeEntry) : (s.setServing r e).dir = s.dir := rfl
@[simp] theorem State.setServing_pub (s : State) (r : Region) (e : ServeEntry) : (s.setServing r e).pub = s.pub := rfl
@[simp] theorem State.setServing_roster (s : State) (r : Region) (e : ServeEntry) : (s.setServing r e).roster = s.roster := rfl
@[simp] theorem State.setServing_ctl (s : State) (r : Region) (e : ServeEntry) : (s.setServing r e).ctl = s.ctl := rfl
@[simp] theorem State.setServing_parked (s : State) (r : Region) (e : ServeEntry) : (s.setServing r e).parked = s.parked := rfl
@[simp] theorem State.setServing_cmd (s : State) (r : Region) (e : ServeEntry) : (s.setServing r e).cmd = s.cmd := rfl
@[simp] theorem State.setServing_line (s : State) (r : Region) (e : ServeEntry) : (s.setServing r e).line = s.line := rfl
@[simp] theorem State.setServing_pending (s : State) (r : Region) (e : ServeEntry) : (s.setServing r e).pending = s.pending := rfl
@[simp] theorem State.setServing_entry (s : State) (r : Region) (e : ServeEntry) (q : Region) : (s.setServing r e).entry q = s.entry q := rfl
@[simp] theorem State.setServing_record (s : State) (r : Region) (e : ServeEntry) (q : Region) : (s.setServing r e).record q = s.record q := rfl
@[simp] theorem State.setServing_peer (s : State) (r : Region) (e : ServeEntry) (q : Station) : (s.setServing r e).peer q = s.peer q := rfl
@[simp] theorem State.setServing_pubEntry (s : State) (r : Region) (e : ServeEntry) (q : Region) : (s.setServing r e).pubEntry q = s.pubEntry q := rfl
@[simp] theorem State.setServing_claimants (s : State) (r : Region) (e : ServeEntry) (q : Region) : (s.setServing r e).claimants q = s.claimants q := rfl

/-! `State.setRecord` -/

@[simp] theorem State.setRecord_port (s : State) (r : Region) (c : Option ClaimRecord) : (s.setRecord r c).port = s.port := rfl
@[simp] theorem State.setRecord_image (s : State) (r : Region) (c : Option ClaimRecord) : (s.setRecord r c).image = s.image := rfl
@[simp] theorem State.setRecord_dir (s : State) (r : Region) (c : Option ClaimRecord) : (s.setRecord r c).dir = s.dir := rfl
@[simp] theorem State.setRecord_pub (s : State) (r : Region) (c : Option ClaimRecord) : (s.setRecord r c).pub = s.pub := rfl
@[simp] theorem State.setRecord_roster (s : State) (r : Region) (c : Option ClaimRecord) : (s.setRecord r c).roster = s.roster := rfl
@[simp] theorem State.setRecord_ctl (s : State) (r : Region) (c : Option ClaimRecord) : (s.setRecord r c).ctl = s.ctl := rfl
@[simp] theorem State.setRecord_parked (s : State) (r : Region) (c : Option ClaimRecord) : (s.setRecord r c).parked = s.parked := rfl
@[simp] theorem State.setRecord_cmd (s : State) (r : Region) (c : Option ClaimRecord) : (s.setRecord r c).cmd = s.cmd := rfl
@[simp] theorem State.setRecord_line (s : State) (r : Region) (c : Option ClaimRecord) : (s.setRecord r c).line = s.line := rfl
@[simp] theorem State.setRecord_pending (s : State) (r : Region) (c : Option ClaimRecord) : (s.setRecord r c).pending = s.pending := rfl
@[simp] theorem State.setRecord_entry (s : State) (r : Region) (c : Option ClaimRecord) (q : Region) : (s.setRecord r c).entry q = s.entry q := rfl
@[simp] theorem State.setRecord_serving (s : State) (r : Region) (c : Option ClaimRecord) (q : Region) : (s.setRecord r c).serving q = s.serving q := rfl
@[simp] theorem State.setRecord_peer (s : State) (r : Region) (c : Option ClaimRecord) (q : Station) : (s.setRecord r c).peer q = s.peer q := rfl
@[simp] theorem State.setRecord_pubEntry (s : State) (r : Region) (c : Option ClaimRecord) (q : Region) : (s.setRecord r c).pubEntry q = s.pubEntry q := rfl
@[simp] theorem State.setRecord_claimants (s : State) (r : Region) (c : Option ClaimRecord) (q : Region) : (s.setRecord r c).claimants q = s.claimants q := rfl

/-! `State.setPeer` -/

@[simp] theorem State.setPeer_port (s : State) (p : Station) (e : RosterEntry) : (s.setPeer p e).port = s.port := rfl
@[simp] theorem State.setPeer_image (s : State) (p : Station) (e : RosterEntry) : (s.setPeer p e).image = s.image := rfl
@[simp] theorem State.setPeer_dir (s : State) (p : Station) (e : RosterEntry) : (s.setPeer p e).dir = s.dir := rfl
@[simp] theorem State.setPeer_pub (s : State) (p : Station) (e : RosterEntry) : (s.setPeer p e).pub = s.pub := rfl
@[simp] theorem State.setPeer_claims (s : State) (p : Station) (e : RosterEntry) : (s.setPeer p e).claims = s.claims := rfl
@[simp] theorem State.setPeer_ctl (s : State) (p : Station) (e : RosterEntry) : (s.setPeer p e).ctl = s.ctl := rfl
@[simp] theorem State.setPeer_parked (s : State) (p : Station) (e : RosterEntry) : (s.setPeer p e).parked = s.parked := rfl
@[simp] theorem State.setPeer_cmd (s : State) (p : Station) (e : RosterEntry) : (s.setPeer p e).cmd = s.cmd := rfl
@[simp] theorem State.setPeer_line (s : State) (p : Station) (e : RosterEntry) : (s.setPeer p e).line = s.line := rfl
@[simp] theorem State.setPeer_pending (s : State) (p : Station) (e : RosterEntry) : (s.setPeer p e).pending = s.pending := rfl
@[simp] theorem State.setPeer_entry (s : State) (p : Station) (e : RosterEntry) (q : Region) : (s.setPeer p e).entry q = s.entry q := rfl
@[simp] theorem State.setPeer_serving (s : State) (p : Station) (e : RosterEntry) (q : Region) : (s.setPeer p e).serving q = s.serving q := rfl
@[simp] theorem State.setPeer_record (s : State) (p : Station) (e : RosterEntry) (q : Region) : (s.setPeer p e).record q = s.record q := rfl
@[simp] theorem State.setPeer_pubEntry (s : State) (p : Station) (e : RosterEntry) (q : Region) : (s.setPeer p e).pubEntry q = s.pubEntry q := rfl
@[simp] theorem State.setPeer_claimants (s : State) (p : Station) (e : RosterEntry) (q : Region) : (s.setPeer p e).claimants q = s.claimants q := rfl

/-! `State.setPub` -/

@[simp] theorem State.setPub_port (s : State) (r : Region) (e : Option PubEntry) : (s.setPub r e).port = s.port := rfl
@[simp] theorem State.setPub_image (s : State) (r : Region) (e : Option PubEntry) : (s.setPub r e).image = s.image := rfl
@[simp] theorem State.setPub_dir (s : State) (r : Region) (e : Option PubEntry) : (s.setPub r e).dir = s.dir := rfl
@[simp] theorem State.setPub_claims (s : State) (r : Region) (e : Option PubEntry) : (s.setPub r e).claims = s.claims := rfl
@[simp] theorem State.setPub_roster (s : State) (r : Region) (e : Option PubEntry) : (s.setPub r e).roster = s.roster := rfl
@[simp] theorem State.setPub_ctl (s : State) (r : Region) (e : Option PubEntry) : (s.setPub r e).ctl = s.ctl := rfl
@[simp] theorem State.setPub_parked (s : State) (r : Region) (e : Option PubEntry) : (s.setPub r e).parked = s.parked := rfl
@[simp] theorem State.setPub_cmd (s : State) (r : Region) (e : Option PubEntry) : (s.setPub r e).cmd = s.cmd := rfl
@[simp] theorem State.setPub_line (s : State) (r : Region) (e : Option PubEntry) : (s.setPub r e).line = s.line := rfl
@[simp] theorem State.setPub_pending (s : State) (r : Region) (e : Option PubEntry) : (s.setPub r e).pending = s.pending := rfl
@[simp] theorem State.setPub_entry (s : State) (r : Region) (e : Option PubEntry) (q : Region) : (s.setPub r e).entry q = s.entry q := rfl
@[simp] theorem State.setPub_serving (s : State) (r : Region) (e : Option PubEntry) (q : Region) : (s.setPub r e).serving q = s.serving q := rfl
@[simp] theorem State.setPub_record (s : State) (r : Region) (e : Option PubEntry) (q : Region) : (s.setPub r e).record q = s.record q := rfl
@[simp] theorem State.setPub_peer (s : State) (r : Region) (e : Option PubEntry) (q : Station) : (s.setPub r e).peer q = s.peer q := rfl
@[simp] theorem State.setPub_claimants (s : State) (r : Region) (e : Option PubEntry) (q : Region) : (s.setPub r e).claimants q = s.claimants q := rfl

/-! `State.respond` -/

@[simp] theorem State.respond_image (s : State) (ok : Bool) (d : HostWord) : (s.respond ok d).image = s.image := rfl
@[simp] theorem State.respond_dir (s : State) (ok : Bool) (d : HostWord) : (s.respond ok d).dir = s.dir := rfl
@[simp] theorem State.respond_pub (s : State) (ok : Bool) (d : HostWord) : (s.respond ok d).pub = s.pub := rfl
@[simp] theorem State.respond_claims (s : State) (ok : Bool) (d : HostWord) : (s.respond ok d).claims = s.claims := rfl
@[simp] theorem State.respond_roster (s : State) (ok : Bool) (d : HostWord) : (s.respond ok d).roster = s.roster := rfl
@[simp] theorem State.respond_ctl (s : State) (ok : Bool) (d : HostWord) : (s.respond ok d).ctl = s.ctl := rfl
@[simp] theorem State.respond_parked (s : State) (ok : Bool) (d : HostWord) : (s.respond ok d).parked = s.parked := rfl
@[simp] theorem State.respond_cmd (s : State) (ok : Bool) (d : HostWord) : (s.respond ok d).cmd = s.cmd := rfl
@[simp] theorem State.respond_line (s : State) (ok : Bool) (d : HostWord) : (s.respond ok d).line = s.line := rfl
@[simp] theorem State.respond_pending (s : State) (ok : Bool) (d : HostWord) : (s.respond ok d).pending = s.pending := rfl
@[simp] theorem State.respond_entry (s : State) (ok : Bool) (d : HostWord) (q : Region) : (s.respond ok d).entry q = s.entry q := rfl
@[simp] theorem State.respond_serving (s : State) (ok : Bool) (d : HostWord) (q : Region) : (s.respond ok d).serving q = s.serving q := rfl
@[simp] theorem State.respond_record (s : State) (ok : Bool) (d : HostWord) (q : Region) : (s.respond ok d).record q = s.record q := rfl
@[simp] theorem State.respond_peer (s : State) (ok : Bool) (d : HostWord) (q : Station) : (s.respond ok d).peer q = s.peer q := rfl
@[simp] theorem State.respond_pubEntry (s : State) (ok : Bool) (d : HostWord) (q : Region) : (s.respond ok d).pubEntry q = s.pubEntry q := rfl
@[simp] theorem State.respond_claimants (s : State) (ok : Bool) (d : HostWord) (q : Region) : (s.respond ok d).claimants q = s.claimants q := rfl

/-! `State.setResult` -/

@[simp] theorem State.setResult_port (s : State) (x : Result) : (s.setResult x).port = s.port := rfl
@[simp] theorem State.setResult_image (s : State) (x : Result) : (s.setResult x).image = s.image := rfl
@[simp] theorem State.setResult_dir (s : State) (x : Result) : (s.setResult x).dir = s.dir := rfl
@[simp] theorem State.setResult_pub (s : State) (x : Result) : (s.setResult x).pub = s.pub := rfl
@[simp] theorem State.setResult_claims (s : State) (x : Result) : (s.setResult x).claims = s.claims := rfl
@[simp] theorem State.setResult_roster (s : State) (x : Result) : (s.setResult x).roster = s.roster := rfl
@[simp] theorem State.setResult_ctl (s : State) (x : Result) : (s.setResult x).ctl = s.ctl := rfl
@[simp] theorem State.setResult_parked (s : State) (x : Result) : (s.setResult x).parked = s.parked := rfl
@[simp] theorem State.setResult_line (s : State) (x : Result) : (s.setResult x).line = s.line := rfl
@[simp] theorem State.setResult_pending (s : State) (x : Result) : (s.setResult x).pending = s.pending := rfl
@[simp] theorem State.setResult_entry (s : State) (x : Result) (q : Region) : (s.setResult x).entry q = s.entry q := rfl
@[simp] theorem State.setResult_serving (s : State) (x : Result) (q : Region) : (s.setResult x).serving q = s.serving q := rfl
@[simp] theorem State.setResult_record (s : State) (x : Result) (q : Region) : (s.setResult x).record q = s.record q := rfl
@[simp] theorem State.setResult_peer (s : State) (x : Result) (q : Station) : (s.setResult x).peer q = s.peer q := rfl
@[simp] theorem State.setResult_pubEntry (s : State) (x : Result) (q : Region) : (s.setResult x).pubEntry q = s.pubEntry q := rfl
@[simp] theorem State.setResult_claimants (s : State) (x : Result) (q : Region) : (s.setResult x).claimants q = s.claimants q := rfl

/-! `State.latchDone` -/

@[simp] theorem State.latchDone_port (s : State) : (s.latchDone).port = s.port := rfl
@[simp] theorem State.latchDone_image (s : State) : (s.latchDone).image = s.image := rfl
@[simp] theorem State.latchDone_dir (s : State) : (s.latchDone).dir = s.dir := rfl
@[simp] theorem State.latchDone_pub (s : State) : (s.latchDone).pub = s.pub := rfl
@[simp] theorem State.latchDone_claims (s : State) : (s.latchDone).claims = s.claims := rfl
@[simp] theorem State.latchDone_roster (s : State) : (s.latchDone).roster = s.roster := rfl
@[simp] theorem State.latchDone_ctl (s : State) : (s.latchDone).ctl = s.ctl := rfl
@[simp] theorem State.latchDone_parked (s : State) : (s.latchDone).parked = s.parked := rfl
@[simp] theorem State.latchDone_line (s : State) : (s.latchDone).line = s.line := rfl
@[simp] theorem State.latchDone_pending (s : State) : (s.latchDone).pending = s.pending := rfl
@[simp] theorem State.latchDone_entry (s : State) (q : Region) : (s.latchDone).entry q = s.entry q := rfl
@[simp] theorem State.latchDone_serving (s : State) (q : Region) : (s.latchDone).serving q = s.serving q := rfl
@[simp] theorem State.latchDone_record (s : State) (q : Region) : (s.latchDone).record q = s.record q := rfl
@[simp] theorem State.latchDone_peer (s : State) (q : Station) : (s.latchDone).peer q = s.peer q := rfl
@[simp] theorem State.latchDone_pubEntry (s : State) (q : Region) : (s.latchDone).pubEntry q = s.pubEntry q := rfl
@[simp] theorem State.latchDone_claimants (s : State) (q : Region) : (s.latchDone).claimants q = s.claimants q := rfl

/-! `State.latchLine` -/

@[simp] theorem State.latchLine_port (s : State) : (s.latchLine).port = s.port := rfl
@[simp] theorem State.latchLine_image (s : State) : (s.latchLine).image = s.image := rfl
@[simp] theorem State.latchLine_dir (s : State) : (s.latchLine).dir = s.dir := rfl
@[simp] theorem State.latchLine_pub (s : State) : (s.latchLine).pub = s.pub := rfl
@[simp] theorem State.latchLine_claims (s : State) : (s.latchLine).claims = s.claims := rfl
@[simp] theorem State.latchLine_roster (s : State) : (s.latchLine).roster = s.roster := rfl
@[simp] theorem State.latchLine_ctl (s : State) : (s.latchLine).ctl = s.ctl := rfl
@[simp] theorem State.latchLine_parked (s : State) : (s.latchLine).parked = s.parked := rfl
@[simp] theorem State.latchLine_line (s : State) : (s.latchLine).line = s.line := rfl
@[simp] theorem State.latchLine_pending (s : State) : (s.latchLine).pending = s.pending := rfl
@[simp] theorem State.latchLine_entry (s : State) (q : Region) : (s.latchLine).entry q = s.entry q := rfl
@[simp] theorem State.latchLine_serving (s : State) (q : Region) : (s.latchLine).serving q = s.serving q := rfl
@[simp] theorem State.latchLine_record (s : State) (q : Region) : (s.latchLine).record q = s.record q := rfl
@[simp] theorem State.latchLine_peer (s : State) (q : Station) : (s.latchLine).peer q = s.peer q := rfl
@[simp] theorem State.latchLine_pubEntry (s : State) (q : Region) : (s.latchLine).pubEntry q = s.pubEntry q := rfl
@[simp] theorem State.latchLine_claimants (s : State) (q : Region) : (s.latchLine).claimants q = s.claimants q := rfl

/-! `State.clearMarks` -/

@[simp] theorem State.clearMarks_port (s : State) (p : Mark → Bool) : (s.clearMarks p).port = s.port := rfl
@[simp] theorem State.clearMarks_image (s : State) (p : Mark → Bool) : (s.clearMarks p).image = s.image := rfl
@[simp] theorem State.clearMarks_dir (s : State) (p : Mark → Bool) : (s.clearMarks p).dir = s.dir := rfl
@[simp] theorem State.clearMarks_pub (s : State) (p : Mark → Bool) : (s.clearMarks p).pub = s.pub := rfl
@[simp] theorem State.clearMarks_claims (s : State) (p : Mark → Bool) : (s.clearMarks p).claims = s.claims := rfl
@[simp] theorem State.clearMarks_roster (s : State) (p : Mark → Bool) : (s.clearMarks p).roster = s.roster := rfl
@[simp] theorem State.clearMarks_ctl (s : State) (p : Mark → Bool) : (s.clearMarks p).ctl = s.ctl := rfl
@[simp] theorem State.clearMarks_parked (s : State) (p : Mark → Bool) : (s.clearMarks p).parked = s.parked := rfl
@[simp] theorem State.clearMarks_cmd (s : State) (p : Mark → Bool) : (s.clearMarks p).cmd = s.cmd := rfl
@[simp] theorem State.clearMarks_pending (s : State) (p : Mark → Bool) : (s.clearMarks p).pending = s.pending := rfl
@[simp] theorem State.clearMarks_entry (s : State) (p : Mark → Bool) (q : Region) : (s.clearMarks p).entry q = s.entry q := rfl
@[simp] theorem State.clearMarks_serving (s : State) (p : Mark → Bool) (q : Region) : (s.clearMarks p).serving q = s.serving q := rfl
@[simp] theorem State.clearMarks_record (s : State) (p : Mark → Bool) (q : Region) : (s.clearMarks p).record q = s.record q := rfl
@[simp] theorem State.clearMarks_peer (s : State) (p : Mark → Bool) (q : Station) : (s.clearMarks p).peer q = s.peer q := rfl
@[simp] theorem State.clearMarks_pubEntry (s : State) (p : Mark → Bool) (q : Region) : (s.clearMarks p).pubEntry q = s.pubEntry q := rfl
@[simp] theorem State.clearMarks_claimants (s : State) (p : Mark → Bool) (q : Region) : (s.clearMarks p).claimants q = s.claimants q := rfl

/-! `State.fell` -/

@[simp] theorem State.fell_port (s : State) (p : QFrame → Bool) : (s.fell p).port = s.port := rfl
@[simp] theorem State.fell_image (s : State) (p : QFrame → Bool) : (s.fell p).image = s.image := rfl
@[simp] theorem State.fell_dir (s : State) (p : QFrame → Bool) : (s.fell p).dir = s.dir := rfl
@[simp] theorem State.fell_pub (s : State) (p : QFrame → Bool) : (s.fell p).pub = s.pub := rfl
@[simp] theorem State.fell_claims (s : State) (p : QFrame → Bool) : (s.fell p).claims = s.claims := rfl
@[simp] theorem State.fell_roster (s : State) (p : QFrame → Bool) : (s.fell p).roster = s.roster := rfl
@[simp] theorem State.fell_ctl (s : State) (p : QFrame → Bool) : (s.fell p).ctl = s.ctl := rfl
@[simp] theorem State.fell_parked (s : State) (p : QFrame → Bool) : (s.fell p).parked = s.parked := rfl
@[simp] theorem State.fell_cmd (s : State) (p : QFrame → Bool) : (s.fell p).cmd = s.cmd := rfl
@[simp] theorem State.fell_pending (s : State) (p : QFrame → Bool) : (s.fell p).pending = s.pending := rfl
@[simp] theorem State.fell_entry (s : State) (p : QFrame → Bool) (q : Region) : (s.fell p).entry q = s.entry q := rfl
@[simp] theorem State.fell_serving (s : State) (p : QFrame → Bool) (q : Region) : (s.fell p).serving q = s.serving q := rfl
@[simp] theorem State.fell_record (s : State) (p : QFrame → Bool) (q : Region) : (s.fell p).record q = s.record q := rfl
@[simp] theorem State.fell_peer (s : State) (p : QFrame → Bool) (q : Station) : (s.fell p).peer q = s.peer q := rfl
@[simp] theorem State.fell_pubEntry (s : State) (p : QFrame → Bool) (q : Region) : (s.fell p).pubEntry q = s.pubEntry q := rfl
@[simp] theorem State.fell_claimants (s : State) (p : QFrame → Bool) (q : Region) : (s.fell p).claimants q = s.claimants q := rfl

/-! `State.emptyPublish` -/

@[simp] theorem State.emptyPublish_port (s : State) : (s.emptyPublish).port = s.port := rfl
@[simp] theorem State.emptyPublish_image (s : State) : (s.emptyPublish).image = s.image := rfl
@[simp] theorem State.emptyPublish_dir (s : State) : (s.emptyPublish).dir = s.dir := rfl
@[simp] theorem State.emptyPublish_claims (s : State) : (s.emptyPublish).claims = s.claims := rfl
@[simp] theorem State.emptyPublish_roster (s : State) : (s.emptyPublish).roster = s.roster := rfl
@[simp] theorem State.emptyPublish_ctl (s : State) : (s.emptyPublish).ctl = s.ctl := rfl
@[simp] theorem State.emptyPublish_parked (s : State) : (s.emptyPublish).parked = s.parked := rfl
@[simp] theorem State.emptyPublish_cmd (s : State) : (s.emptyPublish).cmd = s.cmd := rfl
@[simp] theorem State.emptyPublish_line (s : State) : (s.emptyPublish).line = s.line := rfl
@[simp] theorem State.emptyPublish_pending (s : State) : (s.emptyPublish).pending = s.pending := rfl
@[simp] theorem State.emptyPublish_entry (s : State) (q : Region) : (s.emptyPublish).entry q = s.entry q := rfl
@[simp] theorem State.emptyPublish_serving (s : State) (q : Region) : (s.emptyPublish).serving q = s.serving q := rfl
@[simp] theorem State.emptyPublish_record (s : State) (q : Region) : (s.emptyPublish).record q = s.record q := rfl
@[simp] theorem State.emptyPublish_peer (s : State) (q : Station) : (s.emptyPublish).peer q = s.peer q := rfl
@[simp] theorem State.emptyPublish_claimants (s : State) (q : Region) : (s.emptyPublish).claimants q = s.claimants q := rfl

/-! `State.unpublish` -/

@[simp] theorem State.unpublish_port (s : State) (r : Region) : (s.unpublish r).port = s.port := rfl
@[simp] theorem State.unpublish_image (s : State) (r : Region) : (s.unpublish r).image = s.image := rfl
@[simp] theorem State.unpublish_dir (s : State) (r : Region) : (s.unpublish r).dir = s.dir := rfl
@[simp] theorem State.unpublish_claims (s : State) (r : Region) : (s.unpublish r).claims = s.claims := rfl
@[simp] theorem State.unpublish_roster (s : State) (r : Region) : (s.unpublish r).roster = s.roster := rfl
@[simp] theorem State.unpublish_ctl (s : State) (r : Region) : (s.unpublish r).ctl = s.ctl := rfl
@[simp] theorem State.unpublish_parked (s : State) (r : Region) : (s.unpublish r).parked = s.parked := rfl
@[simp] theorem State.unpublish_cmd (s : State) (r : Region) : (s.unpublish r).cmd = s.cmd := rfl
@[simp] theorem State.unpublish_pending (s : State) (r : Region) : (s.unpublish r).pending = s.pending := rfl
@[simp] theorem State.unpublish_entry (s : State) (r : Region) (q : Region) : (s.unpublish r).entry q = s.entry q := rfl
@[simp] theorem State.unpublish_serving (s : State) (r : Region) (q : Region) : (s.unpublish r).serving q = s.serving q := rfl
@[simp] theorem State.unpublish_record (s : State) (r : Region) (q : Region) : (s.unpublish r).record q = s.record q := rfl
@[simp] theorem State.unpublish_peer (s : State) (r : Region) (q : Station) : (s.unpublish r).peer q = s.peer q := rfl
@[simp] theorem State.unpublish_claimants (s : State) (r : Region) (q : Region) : (s.unpublish r).claimants q = s.claimants q := rfl

/-! `State.dropParked` -/

@[simp] theorem State.dropParked_port (s : State) (r : Region) : (s.dropParked r).port = s.port := rfl
@[simp] theorem State.dropParked_image (s : State) (r : Region) : (s.dropParked r).image = s.image := rfl
@[simp] theorem State.dropParked_dir (s : State) (r : Region) : (s.dropParked r).dir = s.dir := rfl
@[simp] theorem State.dropParked_pub (s : State) (r : Region) : (s.dropParked r).pub = s.pub := rfl
@[simp] theorem State.dropParked_claims (s : State) (r : Region) : (s.dropParked r).claims = s.claims := rfl
@[simp] theorem State.dropParked_roster (s : State) (r : Region) : (s.dropParked r).roster = s.roster := rfl
@[simp] theorem State.dropParked_ctl (s : State) (r : Region) : (s.dropParked r).ctl = s.ctl := rfl
@[simp] theorem State.dropParked_cmd (s : State) (r : Region) : (s.dropParked r).cmd = s.cmd := rfl
@[simp] theorem State.dropParked_line (s : State) (r : Region) : (s.dropParked r).line = s.line := rfl
@[simp] theorem State.dropParked_pending (s : State) (r : Region) : (s.dropParked r).pending = s.pending := rfl
@[simp] theorem State.dropParked_entry (s : State) (r : Region) (q : Region) : (s.dropParked r).entry q = s.entry q := rfl
@[simp] theorem State.dropParked_serving (s : State) (r : Region) (q : Region) : (s.dropParked r).serving q = s.serving q := rfl
@[simp] theorem State.dropParked_record (s : State) (r : Region) (q : Region) : (s.dropParked r).record q = s.record q := rfl
@[simp] theorem State.dropParked_peer (s : State) (r : Region) (q : Station) : (s.dropParked r).peer q = s.peer q := rfl
@[simp] theorem State.dropParked_pubEntry (s : State) (r : Region) (q : Region) : (s.dropParked r).pubEntry q = s.pubEntry q := rfl
@[simp] theorem State.dropParked_claimants (s : State) (r : Region) (q : Region) : (s.dropParked r).claimants q = s.claimants q := rfl

/-! `State.clearTable` -/

@[simp] theorem State.clearTable_port (s : State) (r : Region) : (s.clearTable r).port = s.port := rfl
@[simp] theorem State.clearTable_image (s : State) (r : Region) : (s.clearTable r).image = s.image := rfl
@[simp] theorem State.clearTable_dir (s : State) (r : Region) : (s.clearTable r).dir = s.dir := rfl
@[simp] theorem State.clearTable_pub (s : State) (r : Region) : (s.clearTable r).pub = s.pub := rfl
@[simp] theorem State.clearTable_roster (s : State) (r : Region) : (s.clearTable r).roster = s.roster := rfl
@[simp] theorem State.clearTable_ctl (s : State) (r : Region) : (s.clearTable r).ctl = s.ctl := rfl
@[simp] theorem State.clearTable_parked (s : State) (r : Region) : (s.clearTable r).parked = s.parked := rfl
@[simp] theorem State.clearTable_cmd (s : State) (r : Region) : (s.clearTable r).cmd = s.cmd := rfl
@[simp] theorem State.clearTable_line (s : State) (r : Region) : (s.clearTable r).line = s.line := rfl
@[simp] theorem State.clearTable_pending (s : State) (r : Region) : (s.clearTable r).pending = s.pending := rfl
@[simp] theorem State.clearTable_entry (s : State) (r : Region) (q : Region) : (s.clearTable r).entry q = s.entry q := rfl
@[simp] theorem State.clearTable_serving (s : State) (r : Region) (q : Region) : (s.clearTable r).serving q = s.serving q := rfl
@[simp] theorem State.clearTable_record (s : State) (r : Region) (q : Region) : (s.clearTable r).record q = s.record q := rfl
@[simp] theorem State.clearTable_peer (s : State) (r : Region) (q : Station) : (s.clearTable r).peer q = s.peer q := rfl
@[simp] theorem State.clearTable_pubEntry (s : State) (r : Region) (q : Region) : (s.clearTable r).pubEntry q = s.pubEntry q := rfl

/-! `State.removeClaimant` -/

@[simp] theorem State.removeClaimant_port (s : State) (r : Region) (p : Station) : (s.removeClaimant r p).port = s.port := rfl
@[simp] theorem State.removeClaimant_image (s : State) (r : Region) (p : Station) : (s.removeClaimant r p).image = s.image := rfl
@[simp] theorem State.removeClaimant_dir (s : State) (r : Region) (p : Station) : (s.removeClaimant r p).dir = s.dir := rfl
@[simp] theorem State.removeClaimant_pub (s : State) (r : Region) (p : Station) : (s.removeClaimant r p).pub = s.pub := rfl
@[simp] theorem State.removeClaimant_roster (s : State) (r : Region) (p : Station) : (s.removeClaimant r p).roster = s.roster := rfl
@[simp] theorem State.removeClaimant_ctl (s : State) (r : Region) (p : Station) : (s.removeClaimant r p).ctl = s.ctl := rfl
@[simp] theorem State.removeClaimant_parked (s : State) (r : Region) (p : Station) : (s.removeClaimant r p).parked = s.parked := rfl
@[simp] theorem State.removeClaimant_cmd (s : State) (r : Region) (p : Station) : (s.removeClaimant r p).cmd = s.cmd := rfl
@[simp] theorem State.removeClaimant_line (s : State) (r : Region) (p : Station) : (s.removeClaimant r p).line = s.line := rfl
@[simp] theorem State.removeClaimant_pending (s : State) (r : Region) (p : Station) : (s.removeClaimant r p).pending = s.pending := rfl
@[simp] theorem State.removeClaimant_entry (s : State) (r : Region) (p : Station) (q : Region) : (s.removeClaimant r p).entry q = s.entry q := rfl
@[simp] theorem State.removeClaimant_serving (s : State) (r : Region) (p : Station) (q : Region) : (s.removeClaimant r p).serving q = s.serving q := rfl
@[simp] theorem State.removeClaimant_record (s : State) (r : Region) (p : Station) (q : Region) : (s.removeClaimant r p).record q = s.record q := rfl
@[simp] theorem State.removeClaimant_peer (s : State) (r : Region) (p : Station) (q : Station) : (s.removeClaimant r p).peer q = s.peer q := rfl
@[simp] theorem State.removeClaimant_pubEntry (s : State) (r : Region) (p : Station) (q : Region) : (s.removeClaimant r p).pubEntry q = s.pubEntry q := rfl

/-! `State.removeEverywhere` -/

@[simp] theorem State.removeEverywhere_port (s : State) (p : Station) : (s.removeEverywhere p).port = s.port := rfl
@[simp] theorem State.removeEverywhere_image (s : State) (p : Station) : (s.removeEverywhere p).image = s.image := rfl
@[simp] theorem State.removeEverywhere_dir (s : State) (p : Station) : (s.removeEverywhere p).dir = s.dir := rfl
@[simp] theorem State.removeEverywhere_pub (s : State) (p : Station) : (s.removeEverywhere p).pub = s.pub := rfl
@[simp] theorem State.removeEverywhere_roster (s : State) (p : Station) : (s.removeEverywhere p).roster = s.roster := rfl
@[simp] theorem State.removeEverywhere_ctl (s : State) (p : Station) : (s.removeEverywhere p).ctl = s.ctl := rfl
@[simp] theorem State.removeEverywhere_parked (s : State) (p : Station) : (s.removeEverywhere p).parked = s.parked := rfl
@[simp] theorem State.removeEverywhere_cmd (s : State) (p : Station) : (s.removeEverywhere p).cmd = s.cmd := rfl
@[simp] theorem State.removeEverywhere_line (s : State) (p : Station) : (s.removeEverywhere p).line = s.line := rfl
@[simp] theorem State.removeEverywhere_pending (s : State) (p : Station) : (s.removeEverywhere p).pending = s.pending := rfl
@[simp] theorem State.removeEverywhere_entry (s : State) (p : Station) (q : Region) : (s.removeEverywhere p).entry q = s.entry q := rfl
@[simp] theorem State.removeEverywhere_serving (s : State) (p : Station) (q : Region) : (s.removeEverywhere p).serving q = s.serving q := rfl
@[simp] theorem State.removeEverywhere_record (s : State) (p : Station) (q : Region) : (s.removeEverywhere p).record q = s.record q := rfl
@[simp] theorem State.removeEverywhere_peer (s : State) (p : Station) (q : Station) : (s.removeEverywhere p).peer q = s.peer q := rfl
@[simp] theorem State.removeEverywhere_pubEntry (s : State) (p : Station) (q : Region) : (s.removeEverywhere p).pubEntry q = s.pubEntry q := rfl

/-! `State.appendClaimant` -/

@[simp] theorem State.appendClaimant_port (s : State) (r : Region) (p : Station) : (s.appendClaimant r p).port = s.port := rfl
@[simp] theorem State.appendClaimant_image (s : State) (r : Region) (p : Station) : (s.appendClaimant r p).image = s.image := rfl
@[simp] theorem State.appendClaimant_dir (s : State) (r : Region) (p : Station) : (s.appendClaimant r p).dir = s.dir := rfl
@[simp] theorem State.appendClaimant_pub (s : State) (r : Region) (p : Station) : (s.appendClaimant r p).pub = s.pub := rfl
@[simp] theorem State.appendClaimant_roster (s : State) (r : Region) (p : Station) : (s.appendClaimant r p).roster = s.roster := rfl
@[simp] theorem State.appendClaimant_ctl (s : State) (r : Region) (p : Station) : (s.appendClaimant r p).ctl = s.ctl := rfl
@[simp] theorem State.appendClaimant_parked (s : State) (r : Region) (p : Station) : (s.appendClaimant r p).parked = s.parked := rfl
@[simp] theorem State.appendClaimant_cmd (s : State) (r : Region) (p : Station) : (s.appendClaimant r p).cmd = s.cmd := rfl
@[simp] theorem State.appendClaimant_line (s : State) (r : Region) (p : Station) : (s.appendClaimant r p).line = s.line := rfl
@[simp] theorem State.appendClaimant_pending (s : State) (r : Region) (p : Station) : (s.appendClaimant r p).pending = s.pending := rfl
@[simp] theorem State.appendClaimant_entry (s : State) (r : Region) (p : Station) (q : Region) : (s.appendClaimant r p).entry q = s.entry q := rfl
@[simp] theorem State.appendClaimant_serving (s : State) (r : Region) (p : Station) (q : Region) : (s.appendClaimant r p).serving q = s.serving q := rfl
@[simp] theorem State.appendClaimant_record (s : State) (r : Region) (p : Station) (q : Region) : (s.appendClaimant r p).record q = s.record q := rfl
@[simp] theorem State.appendClaimant_peer (s : State) (r : Region) (p : Station) (q : Station) : (s.appendClaimant r p).peer q = s.peer q := rfl
@[simp] theorem State.appendClaimant_pubEntry (s : State) (r : Region) (p : Station) (q : Region) : (s.appendClaimant r p).pubEntry q = s.pubEntry q := rfl

/-! `State.endFlight` -/

@[simp] theorem State.endFlight_port (s : State) : (s.endFlight).port = s.port := rfl
@[simp] theorem State.endFlight_image (s : State) : (s.endFlight).image = s.image := rfl
@[simp] theorem State.endFlight_dir (s : State) : (s.endFlight).dir = s.dir := rfl
@[simp] theorem State.endFlight_pub (s : State) : (s.endFlight).pub = s.pub := rfl
@[simp] theorem State.endFlight_claims (s : State) : (s.endFlight).claims = s.claims := rfl
@[simp] theorem State.endFlight_roster (s : State) : (s.endFlight).roster = s.roster := rfl
@[simp] theorem State.endFlight_ctl (s : State) : (s.endFlight).ctl = s.ctl := rfl
@[simp] theorem State.endFlight_parked (s : State) : (s.endFlight).parked = s.parked := rfl
@[simp] theorem State.endFlight_cmd (s : State) : (s.endFlight).cmd = s.cmd := rfl
@[simp] theorem State.endFlight_pending (s : State) : (s.endFlight).pending = s.pending := rfl
@[simp] theorem State.endFlight_entry (s : State) (q : Region) : (s.endFlight).entry q = s.entry q := rfl
@[simp] theorem State.endFlight_serving (s : State) (q : Region) : (s.endFlight).serving q = s.serving q := rfl
@[simp] theorem State.endFlight_record (s : State) (q : Region) : (s.endFlight).record q = s.record q := rfl
@[simp] theorem State.endFlight_peer (s : State) (q : Station) : (s.endFlight).peer q = s.peer q := rfl
@[simp] theorem State.endFlight_pubEntry (s : State) (q : Region) : (s.endFlight).pubEntry q = s.pubEntry q := rfl
@[simp] theorem State.endFlight_claimants (s : State) (q : Region) : (s.endFlight).claimants q = s.claimants q := rfl

/-! `State.foundBurst` -/

@[simp] theorem State.foundBurst_port (s : State) (b : Burst) : (s.foundBurst b).port = s.port := rfl
@[simp] theorem State.foundBurst_image (s : State) (b : Burst) : (s.foundBurst b).image = s.image := rfl
@[simp] theorem State.foundBurst_dir (s : State) (b : Burst) : (s.foundBurst b).dir = s.dir := rfl
@[simp] theorem State.foundBurst_pub (s : State) (b : Burst) : (s.foundBurst b).pub = s.pub := rfl
@[simp] theorem State.foundBurst_claims (s : State) (b : Burst) : (s.foundBurst b).claims = s.claims := rfl
@[simp] theorem State.foundBurst_roster (s : State) (b : Burst) : (s.foundBurst b).roster = s.roster := rfl
@[simp] theorem State.foundBurst_ctl (s : State) (b : Burst) : (s.foundBurst b).ctl = s.ctl := rfl
@[simp] theorem State.foundBurst_parked (s : State) (b : Burst) : (s.foundBurst b).parked = s.parked := rfl
@[simp] theorem State.foundBurst_cmd (s : State) (b : Burst) : (s.foundBurst b).cmd = s.cmd := rfl
@[simp] theorem State.foundBurst_pending (s : State) (b : Burst) : (s.foundBurst b).pending = s.pending := rfl
@[simp] theorem State.foundBurst_entry (s : State) (b : Burst) (q : Region) : (s.foundBurst b).entry q = s.entry q := rfl
@[simp] theorem State.foundBurst_serving (s : State) (b : Burst) (q : Region) : (s.foundBurst b).serving q = s.serving q := rfl
@[simp] theorem State.foundBurst_record (s : State) (b : Burst) (q : Region) : (s.foundBurst b).record q = s.record q := rfl
@[simp] theorem State.foundBurst_peer (s : State) (b : Burst) (q : Station) : (s.foundBurst b).peer q = s.peer q := rfl
@[simp] theorem State.foundBurst_pubEntry (s : State) (b : Burst) (q : Region) : (s.foundBurst b).pubEntry q = s.pubEntry q := rfl
@[simp] theorem State.foundBurst_claimants (s : State) (b : Burst) (q : Region) : (s.foundBurst b).claimants q = s.claimants q := rfl

/-! `State.countGood` -/

@[simp] theorem State.countGood_port (s : State) : (s.countGood).port = s.port := rfl
@[simp] theorem State.countGood_image (s : State) : (s.countGood).image = s.image := rfl
@[simp] theorem State.countGood_dir (s : State) : (s.countGood).dir = s.dir := rfl
@[simp] theorem State.countGood_pub (s : State) : (s.countGood).pub = s.pub := rfl
@[simp] theorem State.countGood_claims (s : State) : (s.countGood).claims = s.claims := rfl
@[simp] theorem State.countGood_roster (s : State) : (s.countGood).roster = s.roster := rfl
@[simp] theorem State.countGood_ctl (s : State) : (s.countGood).ctl = s.ctl := rfl
@[simp] theorem State.countGood_parked (s : State) : (s.countGood).parked = s.parked := rfl
@[simp] theorem State.countGood_cmd (s : State) : (s.countGood).cmd = s.cmd := rfl
@[simp] theorem State.countGood_pending (s : State) : (s.countGood).pending = s.pending := rfl
@[simp] theorem State.countGood_entry (s : State) (q : Region) : (s.countGood).entry q = s.entry q := rfl
@[simp] theorem State.countGood_serving (s : State) (q : Region) : (s.countGood).serving q = s.serving q := rfl
@[simp] theorem State.countGood_record (s : State) (q : Region) : (s.countGood).record q = s.record q := rfl
@[simp] theorem State.countGood_peer (s : State) (q : Station) : (s.countGood).peer q = s.peer q := rfl
@[simp] theorem State.countGood_pubEntry (s : State) (q : Region) : (s.countGood).pubEntry q = s.pubEntry q := rfl
@[simp] theorem State.countGood_claimants (s : State) (q : Region) : (s.countGood).claimants q = s.claimants q := rfl

/-! `State.startWait` and `State.startWaitIfIdle` -/

@[simp] theorem State.startWait_port (s : State) : s.startWait.port = s.port := rfl
@[simp] theorem State.startWait_image (s : State) : s.startWait.image = s.image := rfl
@[simp] theorem State.startWait_dir (s : State) : s.startWait.dir = s.dir := rfl
@[simp] theorem State.startWait_pub (s : State) : s.startWait.pub = s.pub := rfl
@[simp] theorem State.startWait_claims (s : State) : s.startWait.claims = s.claims := rfl
@[simp] theorem State.startWait_roster (s : State) : s.startWait.roster = s.roster := rfl
@[simp] theorem State.startWait_ctl (s : State) : s.startWait.ctl = s.ctl := rfl
@[simp] theorem State.startWait_parked (s : State) : s.startWait.parked = s.parked := rfl
@[simp] theorem State.startWait_cmd (s : State) : s.startWait.cmd = s.cmd := rfl
@[simp] theorem State.startWait_pending (s : State) : s.startWait.pending = s.pending := rfl
@[simp] theorem State.startWaitIfIdle_port (s : State) : s.startWaitIfIdle.port = s.port := by
  unfold State.startWaitIfIdle; split <;> rfl
@[simp] theorem State.startWaitIfIdle_image (s : State) : s.startWaitIfIdle.image = s.image := by
  unfold State.startWaitIfIdle; split <;> rfl
@[simp] theorem State.startWaitIfIdle_dir (s : State) : s.startWaitIfIdle.dir = s.dir := by
  unfold State.startWaitIfIdle; split <;> rfl
@[simp] theorem State.startWaitIfIdle_pub (s : State) : s.startWaitIfIdle.pub = s.pub := by
  unfold State.startWaitIfIdle; split <;> rfl
@[simp] theorem State.startWaitIfIdle_claims (s : State) : s.startWaitIfIdle.claims = s.claims := by
  unfold State.startWaitIfIdle; split <;> rfl
@[simp] theorem State.startWaitIfIdle_roster (s : State) : s.startWaitIfIdle.roster = s.roster := by
  unfold State.startWaitIfIdle; split <;> rfl
@[simp] theorem State.startWaitIfIdle_ctl (s : State) : s.startWaitIfIdle.ctl = s.ctl := by
  unfold State.startWaitIfIdle; split <;> rfl
@[simp] theorem State.startWaitIfIdle_parked (s : State) : s.startWaitIfIdle.parked = s.parked := by
  unfold State.startWaitIfIdle; split <;> rfl
@[simp] theorem State.startWaitIfIdle_cmd (s : State) : s.startWaitIfIdle.cmd = s.cmd := by
  unfold State.startWaitIfIdle; split <;> rfl
@[simp] theorem State.startWaitIfIdle_pending (s : State) : s.startWaitIfIdle.pending = s.pending := by
  unfold State.startWaitIfIdle; split <;> rfl

/-- A wait begun where the line is idle changes the frame in flight alone. -/
theorem State.startWaitIfIdle_line (s : State) : { s.startWaitIfIdle.line with flight := s.line.flight } = s.line := by
  unfold State.startWaitIfIdle; split <;> rfl

/-! `State.startAttempt` -/

@[simp] theorem State.startAttempt_port (s : State) (f : Flight) (x : Frame) : (s.startAttempt f x).port = s.port := rfl
@[simp] theorem State.startAttempt_image (s : State) (f : Flight) (x : Frame) : (s.startAttempt f x).image = s.image := rfl
@[simp] theorem State.startAttempt_dir (s : State) (f : Flight) (x : Frame) : (s.startAttempt f x).dir = s.dir := rfl
@[simp] theorem State.startAttempt_pub (s : State) (f : Flight) (x : Frame) : (s.startAttempt f x).pub = s.pub := rfl
@[simp] theorem State.startAttempt_claims (s : State) (f : Flight) (x : Frame) : (s.startAttempt f x).claims = s.claims := rfl
@[simp] theorem State.startAttempt_roster (s : State) (f : Flight) (x : Frame) : (s.startAttempt f x).roster = s.roster := rfl
@[simp] theorem State.startAttempt_ctl (s : State) (f : Flight) (x : Frame) : (s.startAttempt f x).ctl = s.ctl := rfl
@[simp] theorem State.startAttempt_parked (s : State) (f : Flight) (x : Frame) : (s.startAttempt f x).parked = s.parked := rfl
@[simp] theorem State.startAttempt_cmd (s : State) (f : Flight) (x : Frame) : (s.startAttempt f x).cmd = s.cmd := rfl
@[simp] theorem State.startAttempt_pending (s : State) (f : Flight) (x : Frame) : (s.startAttempt f x).pending = s.pending := rfl
@[simp] theorem State.startAttempt_entry (s : State) (f : Flight) (x : Frame) (q : Region) : (s.startAttempt f x).entry q = s.entry q := rfl
@[simp] theorem State.startAttempt_serving (s : State) (f : Flight) (x : Frame) (q : Region) : (s.startAttempt f x).serving q = s.serving q := rfl
@[simp] theorem State.startAttempt_record (s : State) (f : Flight) (x : Frame) (q : Region) : (s.startAttempt f x).record q = s.record q := rfl
@[simp] theorem State.startAttempt_peer (s : State) (f : Flight) (x : Frame) (q : Station) : (s.startAttempt f x).peer q = s.peer q := rfl
@[simp] theorem State.startAttempt_pubEntry (s : State) (f : Flight) (x : Frame) (q : Region) : (s.startAttempt f x).pubEntry q = s.pubEntry q := rfl
@[simp] theorem State.startAttempt_claimants (s : State) (f : Flight) (x : Frame) (q : Region) : (s.startAttempt f x).claimants q = s.claimants q := rfl

/-! ### Reading back what was written -/

theorem State.setEntry_entry (s : State) (r : Region) (e : DirEntry) (q : Region) :
    (s.setEntry r e).entry q = if q = r then e else s.entry q := pick_put _ _ _ _

@[simp] theorem State.setEntry_entry_same (s : State) (r : Region) (e : DirEntry) : (s.setEntry r e).entry r = e :=
  pick_put_same _ _ _

theorem State.setServing_serving (s : State) (r : Region) (e : ServeEntry) (q : Region) :
    (s.setServing r e).serving q = if q = r then e else s.serving q := pick_put _ _ _ _

@[simp] theorem State.setServing_serving_same (s : State) (r : Region) (e : ServeEntry) : (s.setServing r e).serving r = e :=
  pick_put_same _ _ _

theorem State.setRecord_record (s : State) (r : Region) (c : Option ClaimRecord) (q : Region) :
    (s.setRecord r c).record q = if q = r then c else s.record q := pick_put _ _ _ _

@[simp] theorem State.setRecord_record_same (s : State) (r : Region) (c : Option ClaimRecord) :
    (s.setRecord r c).record r = c := pick_put_same _ _ _

theorem State.setPeer_peer (s : State) (p : Station) (e : RosterEntry) (q : Station) :
    (s.setPeer p e).peer q = if q = p then e else s.peer q := pick_put _ _ _ _

@[simp] theorem State.setPeer_peer_same (s : State) (p : Station) (e : RosterEntry) : (s.setPeer p e).peer p = e :=
  pick_put_same _ _ _

theorem State.setPub_pubEntry (s : State) (r : Region) (e : Option PubEntry) (q : Region) :
    (s.setPub r e).pubEntry q = if q = r then e else s.pubEntry q := pick_put _ _ _ _

@[simp] theorem State.setPub_pubEntry_same (s : State) (r : Region) (e : Option PubEntry) : (s.setPub r e).pubEntry r = e :=
  pick_put_same _ _ _

theorem State.unpublish_pubEntry (s : State) (r q : Region) : (s.unpublish r).pubEntry q = if q = r then none else s.pubEntry q :=
  pick_put _ _ _ _

@[simp] theorem State.respond_port (s : State) (ok : Bool) (d : HostWord) :
    (s.respond ok d).port = { s.port with answer := some { ok := ok, data := d } } := rfl

@[simp] theorem State.setResult_cmd (s : State) (x : Result) : (s.setResult x).cmd = { s.cmd with result := x } := rfl

@[simp] theorem State.latchDone_cmd (s : State) : s.latchDone.cmd = { s.cmd with commandDone := true } := rfl

@[simp] theorem State.latchLine_cmd (s : State) : s.latchLine.cmd = { s.cmd with lineFlag := true } := rfl

@[simp] theorem State.endFlight_line (s : State) : s.endFlight.line = { s.line with flight := none } := rfl

@[simp] theorem State.dropParked_parked (s : State) (r : Region) :
    (s.dropParked r).parked = s.parked.filter fun w => w.region != r := rfl

end Sys2Proof.Machine
end

