-- ==== Sys2Proof/Laws/Frames.lean ====
section
/-! SUPPORT. What each shared operation leaves alone: one lemma for each field of State, and for each reading by region or station. -/

namespace Sys2Proof.Machine

/-! `State.notify` -/

@[simp] theorem State.notify_port (s : State) (n : Notice) : (s.notify n).port = s.port := by
  unfold State.notify; try dsimp only
  (repeat' split) <;> simp
@[simp] theorem State.notify_image (s : State) (n : Notice) : (s.notify n).image = s.image := by
  unfold State.notify; try dsimp only
  (repeat' split) <;> simp
@[simp] theorem State.notify_dir (s : State) (n : Notice) : (s.notify n).dir = s.dir := by
  unfold State.notify; try dsimp only
  (repeat' split) <;> simp
@[simp] theorem State.notify_pub (s : State) (n : Notice) : (s.notify n).pub = s.pub := by
  unfold State.notify; try dsimp only
  (repeat' split) <;> simp
@[simp] theorem State.notify_claims (s : State) (n : Notice) : (s.notify n).claims = s.claims := by
  unfold State.notify; try dsimp only
  (repeat' split) <;> simp
@[simp] theorem State.notify_roster (s : State) (n : Notice) : (s.notify n).roster = s.roster := by
  unfold State.notify; try dsimp only
  (repeat' split) <;> simp
@[simp] theorem State.notify_ctl (s : State) (n : Notice) : (s.notify n).ctl = s.ctl := by
  unfold State.notify; try dsimp only
  (repeat' split) <;> simp
@[simp] theorem State.notify_parked (s : State) (n : Notice) : (s.notify n).parked = s.parked := by
  unfold State.notify; try dsimp only
  (repeat' split) <;> simp
@[simp] theorem State.notify_line (s : State) (n : Notice) : (s.notify n).line = s.line := by
  unfold State.notify; try dsimp only
  (repeat' split) <;> simp
@[simp] theorem State.notify_pending (s : State) (n : Notice) : (s.notify n).pending = s.pending := by
  unfold State.notify; try dsimp only
  (repeat' split) <;> simp
@[simp] theorem State.notify_entry (s : State) (n : Notice) (q : Region) : (s.notify n).entry q = s.entry q := by
  unfold State.entry; rw [State.notify_dir]
@[simp] theorem State.notify_peer (s : State) (n : Notice) (q : Station) : (s.notify n).peer q = s.peer q := by
  unfold State.peer; rw [State.notify_roster]
@[simp] theorem State.notify_pubEntry (s : State) (n : Notice) (q : Region) : (s.notify n).pubEntry q = s.pubEntry q := by
  unfold State.pubEntry; rw [State.notify_pub]
@[simp] theorem State.notify_record (s : State) (n : Notice) (q : Region) : (s.notify n).record q = s.record q := by
  unfold State.record; rw [State.notify_claims]
@[simp] theorem State.notify_serving (s : State) (n : Notice) (q : Region) : (s.notify n).serving q = s.serving q := by
  unfold State.serving; rw [State.notify_claims]
@[simp] theorem State.notify_claimants (s : State) (n : Notice) (q : Region) : (s.notify n).claimants q = s.claimants q := by
  unfold State.claimants; rw [State.notify_claims]

/-! `State.transition` -/

@[simp] theorem State.transition_port (s : State) (m : Mode) (c : Cause) : (s.transition m c).port = s.port := by simp [State.transition]
@[simp] theorem State.transition_image (s : State) (m : Mode) (c : Cause) : (s.transition m c).image = s.image := by simp [State.transition]
@[simp] theorem State.transition_dir (s : State) (m : Mode) (c : Cause) : (s.transition m c).dir = s.dir := by simp [State.transition]
@[simp] theorem State.transition_pub (s : State) (m : Mode) (c : Cause) : (s.transition m c).pub = s.pub := by simp [State.transition]
@[simp] theorem State.transition_claims (s : State) (m : Mode) (c : Cause) : (s.transition m c).claims = s.claims := by simp [State.transition]
@[simp] theorem State.transition_roster (s : State) (m : Mode) (c : Cause) : (s.transition m c).roster = s.roster := by simp [State.transition]
@[simp] theorem State.transition_parked (s : State) (m : Mode) (c : Cause) : (s.transition m c).parked = s.parked := by simp [State.transition]
@[simp] theorem State.transition_line (s : State) (m : Mode) (c : Cause) : (s.transition m c).line = s.line := by simp [State.transition]
@[simp] theorem State.transition_pending (s : State) (m : Mode) (c : Cause) : (s.transition m c).pending = s.pending := by simp [State.transition]
@[simp] theorem State.transition_entry (s : State) (m : Mode) (c : Cause) (q : Region) : (s.transition m c).entry q = s.entry q := by
  unfold State.entry; rw [State.transition_dir]
@[simp] theorem State.transition_peer (s : State) (m : Mode) (c : Cause) (q : Station) : (s.transition m c).peer q = s.peer q := by
  unfold State.peer; rw [State.transition_roster]
@[simp] theorem State.transition_pubEntry (s : State) (m : Mode) (c : Cause) (q : Region) : (s.transition m c).pubEntry q = s.pubEntry q := by
  unfold State.pubEntry; rw [State.transition_pub]
@[simp] theorem State.transition_record (s : State) (m : Mode) (c : Cause) (q : Region) : (s.transition m c).record q = s.record q := by
  unfold State.record; rw [State.transition_claims]
@[simp] theorem State.transition_serving (s : State) (m : Mode) (c : Cause) (q : Region) : (s.transition m c).serving q = s.serving q := by
  unfold State.serving; rw [State.transition_claims]
@[simp] theorem State.transition_claimants (s : State) (m : Mode) (c : Cause) (q : Region) : (s.transition m c).claimants q = s.claimants q := by
  unfold State.claimants; rw [State.transition_claims]

/-! `State.hand` -/

@[simp] theorem State.hand_port (s : State) (m : Mark) : (s.hand m).port = s.port := by
  unfold State.hand; try dsimp only
  (repeat' split) <;> simp
@[simp] theorem State.hand_image (s : State) (m : Mark) : (s.hand m).image = s.image := by
  unfold State.hand; try dsimp only
  (repeat' split) <;> simp
@[simp] theorem State.hand_dir (s : State) (m : Mark) : (s.hand m).dir = s.dir := by
  unfold State.hand; try dsimp only
  (repeat' split) <;> simp
@[simp] theorem State.hand_pub (s : State) (m : Mark) : (s.hand m).pub = s.pub := by
  unfold State.hand; try dsimp only
  (repeat' split) <;> simp
@[simp] theorem State.hand_claims (s : State) (m : Mark) : (s.hand m).claims = s.claims := by
  unfold State.hand; try dsimp only
  (repeat' split) <;> simp
@[simp] theorem State.hand_roster (s : State) (m : Mark) : (s.hand m).roster = s.roster := by
  unfold State.hand; try dsimp only
  (repeat' split) <;> simp
@[simp] theorem State.hand_ctl (s : State) (m : Mark) : (s.hand m).ctl = s.ctl := by
  unfold State.hand; try dsimp only
  (repeat' split) <;> simp
@[simp] theorem State.hand_parked (s : State) (m : Mark) : (s.hand m).parked = s.parked := by
  unfold State.hand; try dsimp only
  (repeat' split) <;> simp
@[simp] theorem State.hand_cmd (s : State) (m : Mark) : (s.hand m).cmd = s.cmd := by
  unfold State.hand; try dsimp only
  (repeat' split) <;> simp
@[simp] theorem State.hand_pending (s : State) (m : Mark) : (s.hand m).pending = s.pending := by
  unfold State.hand; try dsimp only
  (repeat' split) <;> simp
@[simp] theorem State.hand_entry (s : State) (m : Mark) (q : Region) : (s.hand m).entry q = s.entry q := by
  unfold State.entry; rw [State.hand_dir]
@[simp] theorem State.hand_peer (s : State) (m : Mark) (q : Station) : (s.hand m).peer q = s.peer q := by
  unfold State.peer; rw [State.hand_roster]
@[simp] theorem State.hand_pubEntry (s : State) (m : Mark) (q : Region) : (s.hand m).pubEntry q = s.pubEntry q := by
  unfold State.pubEntry; rw [State.hand_pub]
@[simp] theorem State.hand_record (s : State) (m : Mark) (q : Region) : (s.hand m).record q = s.record q := by
  unfold State.record; rw [State.hand_claims]
@[simp] theorem State.hand_serving (s : State) (m : Mark) (q : Region) : (s.hand m).serving q = s.serving q := by
  unfold State.serving; rw [State.hand_claims]
@[simp] theorem State.hand_claimants (s : State) (m : Mark) (q : Region) : (s.hand m).claimants q = s.claimants q := by
  unfold State.claimants; rw [State.hand_claims]

/-! `State.answer` -/

@[simp] theorem State.answer_port (s : State) (x : QFrame) : (s.answer x).port = s.port := by
  unfold State.answer; try dsimp only
  (repeat' split) <;> simp
@[simp] theorem State.answer_image (s : State) (x : QFrame) : (s.answer x).image = s.image := by
  unfold State.answer; try dsimp only
  (repeat' split) <;> simp
@[simp] theorem State.answer_dir (s : State) (x : QFrame) : (s.answer x).dir = s.dir := by
  unfold State.answer; try dsimp only
  (repeat' split) <;> simp
@[simp] theorem State.answer_pub (s : State) (x : QFrame) : (s.answer x).pub = s.pub := by
  unfold State.answer; try dsimp only
  (repeat' split) <;> simp
@[simp] theorem State.answer_claims (s : State) (x : QFrame) : (s.answer x).claims = s.claims := by
  unfold State.answer; try dsimp only
  (repeat' split) <;> simp
@[simp] theorem State.answer_roster (s : State) (x : QFrame) : (s.answer x).roster = s.roster := by
  unfold State.answer; try dsimp only
  (repeat' split) <;> simp
@[simp] theorem State.answer_ctl (s : State) (x : QFrame) : (s.answer x).ctl = s.ctl := by
  unfold State.answer; try dsimp only
  (repeat' split) <;> simp
@[simp] theorem State.answer_parked (s : State) (x : QFrame) : (s.answer x).parked = s.parked := by
  unfold State.answer; try dsimp only
  (repeat' split) <;> simp
@[simp] theorem State.answer_cmd (s : State) (x : QFrame) : (s.answer x).cmd = s.cmd := by
  unfold State.answer; try dsimp only
  (repeat' split) <;> simp
@[simp] theorem State.answer_pending (s : State) (x : QFrame) : (s.answer x).pending = s.pending := by
  unfold State.answer; try dsimp only
  (repeat' split) <;> simp
@[simp] theorem State.answer_entry (s : State) (x : QFrame) (q : Region) : (s.answer x).entry q = s.entry q := by
  unfold State.entry; rw [State.answer_dir]
@[simp] theorem State.answer_peer (s : State) (x : QFrame) (q : Station) : (s.answer x).peer q = s.peer q := by
  unfold State.peer; rw [State.answer_roster]
@[simp] theorem State.answer_pubEntry (s : State) (x : QFrame) (q : Region) : (s.answer x).pubEntry q = s.pubEntry q := by
  unfold State.pubEntry; rw [State.answer_pub]
@[simp] theorem State.answer_record (s : State) (x : QFrame) (q : Region) : (s.answer x).record q = s.record q := by
  unfold State.record; rw [State.answer_claims]
@[simp] theorem State.answer_serving (s : State) (x : QFrame) (q : Region) : (s.answer x).serving q = s.serving q := by
  unfold State.serving; rw [State.answer_claims]
@[simp] theorem State.answer_claimants (s : State) (x : QFrame) (q : Region) : (s.answer x).claimants q = s.claimants q := by
  unfold State.claimants; rw [State.answer_claims]

/-! `State.withdrawIfRoom` -/

@[simp] theorem State.withdrawIfRoom_port (s : State) (r : Region) : (s.withdrawIfRoom r).port = s.port := by
  unfold State.withdrawIfRoom; try dsimp only
  (repeat' split) <;> simp
@[simp] theorem State.withdrawIfRoom_image (s : State) (r : Region) : (s.withdrawIfRoom r).image = s.image := by
  unfold State.withdrawIfRoom; try dsimp only
  (repeat' split) <;> simp
@[simp] theorem State.withdrawIfRoom_dir (s : State) (r : Region) : (s.withdrawIfRoom r).dir = s.dir := by
  unfold State.withdrawIfRoom; try dsimp only
  (repeat' split) <;> simp
@[simp] theorem State.withdrawIfRoom_pub (s : State) (r : Region) : (s.withdrawIfRoom r).pub = s.pub := by
  unfold State.withdrawIfRoom; try dsimp only
  (repeat' split) <;> simp
@[simp] theorem State.withdrawIfRoom_claims (s : State) (r : Region) : (s.withdrawIfRoom r).claims = s.claims := by
  unfold State.withdrawIfRoom; try dsimp only
  (repeat' split) <;> simp
@[simp] theorem State.withdrawIfRoom_roster (s : State) (r : Region) : (s.withdrawIfRoom r).roster = s.roster := by
  unfold State.withdrawIfRoom; try dsimp only
  (repeat' split) <;> simp
@[simp] theorem State.withdrawIfRoom_ctl (s : State) (r : Region) : (s.withdrawIfRoom r).ctl = s.ctl := by
  unfold State.withdrawIfRoom; try dsimp only
  (repeat' split) <;> simp
@[simp] theorem State.withdrawIfRoom_parked (s : State) (r : Region) : (s.withdrawIfRoom r).parked = s.parked := by
  unfold State.withdrawIfRoom; try dsimp only
  (repeat' split) <;> simp
@[simp] theorem State.withdrawIfRoom_cmd (s : State) (r : Region) : (s.withdrawIfRoom r).cmd = s.cmd := by
  unfold State.withdrawIfRoom; try dsimp only
  (repeat' split) <;> simp
@[simp] theorem State.withdrawIfRoom_pending (s : State) (r : Region) : (s.withdrawIfRoom r).pending = s.pending := by
  unfold State.withdrawIfRoom; try dsimp only
  (repeat' split) <;> simp
@[simp] theorem State.withdrawIfRoom_entry (s : State) (r : Region) (q : Region) : (s.withdrawIfRoom r).entry q = s.entry q := by
  unfold State.entry; rw [State.withdrawIfRoom_dir]
@[simp] theorem State.withdrawIfRoom_peer (s : State) (r : Region) (q : Station) : (s.withdrawIfRoom r).peer q = s.peer q := by
  unfold State.peer; rw [State.withdrawIfRoom_roster]
@[simp] theorem State.withdrawIfRoom_pubEntry (s : State) (r : Region) (q : Region) : (s.withdrawIfRoom r).pubEntry q = s.pubEntry q := by
  unfold State.pubEntry; rw [State.withdrawIfRoom_pub]
@[simp] theorem State.withdrawIfRoom_record (s : State) (r : Region) (q : Region) : (s.withdrawIfRoom r).record q = s.record q := by
  unfold State.record; rw [State.withdrawIfRoom_claims]
@[simp] theorem State.withdrawIfRoom_serving (s : State) (r : Region) (q : Region) : (s.withdrawIfRoom r).serving q = s.serving q := by
  unfold State.serving; rw [State.withdrawIfRoom_claims]
@[simp] theorem State.withdrawIfRoom_claimants (s : State) (r : Region) (q : Region) : (s.withdrawIfRoom r).claimants q = s.claimants q := by
  unfold State.claimants; rw [State.withdrawIfRoom_claims]

/-! `State.addSpan` -/

@[simp] theorem State.addSpan_port (s : State) (r : Region) (a b : Offset) : (s.addSpan r a b).port = s.port := by
  unfold State.addSpan; try dsimp only
  (repeat' split) <;> simp
@[simp] theorem State.addSpan_image (s : State) (r : Region) (a b : Offset) : (s.addSpan r a b).image = s.image := by
  unfold State.addSpan; try dsimp only
  (repeat' split) <;> simp
@[simp] theorem State.addSpan_dir (s : State) (r : Region) (a b : Offset) : (s.addSpan r a b).dir = s.dir := by
  unfold State.addSpan; try dsimp only
  (repeat' split) <;> simp
@[simp] theorem State.addSpan_claims (s : State) (r : Region) (a b : Offset) : (s.addSpan r a b).claims = s.claims := by
  unfold State.addSpan; try dsimp only
  (repeat' split) <;> simp
@[simp] theorem State.addSpan_roster (s : State) (r : Region) (a b : Offset) : (s.addSpan r a b).roster = s.roster := by
  unfold State.addSpan; try dsimp only
  (repeat' split) <;> simp
@[simp] theorem State.addSpan_ctl (s : State) (r : Region) (a b : Offset) : (s.addSpan r a b).ctl = s.ctl := by
  unfold State.addSpan; try dsimp only
  (repeat' split) <;> simp
@[simp] theorem State.addSpan_parked (s : State) (r : Region) (a b : Offset) : (s.addSpan r a b).parked = s.parked := by
  unfold State.addSpan; try dsimp only
  (repeat' split) <;> simp
@[simp] theorem State.addSpan_cmd (s : State) (r : Region) (a b : Offset) : (s.addSpan r a b).cmd = s.cmd := by
  unfold State.addSpan; try dsimp only
  (repeat' split) <;> simp
@[simp] theorem State.addSpan_line (s : State) (r : Region) (a b : Offset) : (s.addSpan r a b).line = s.line := by
  unfold State.addSpan; try dsimp only
  (repeat' split) <;> simp
@[simp] theorem State.addSpan_pending (s : State) (r : Region) (a b : Offset) : (s.addSpan r a b).pending = s.pending := by
  unfold State.addSpan; try dsimp only
  (repeat' split) <;> simp
@[simp] theorem State.addSpan_entry (s : State) (r : Region) (a b : Offset) (q : Region) : (s.addSpan r a b).entry q = s.entry q := by
  unfold State.entry; rw [State.addSpan_dir]
@[simp] theorem State.addSpan_peer (s : State) (r : Region) (a b : Offset) (q : Station) : (s.addSpan r a b).peer q = s.peer q := by
  unfold State.peer; rw [State.addSpan_roster]
@[simp] theorem State.addSpan_record (s : State) (r : Region) (a b : Offset) (q : Region) : (s.addSpan r a b).record q = s.record q := by
  unfold State.record; rw [State.addSpan_claims]
@[simp] theorem State.addSpan_serving (s : State) (r : Region) (a b : Offset) (q : Region) : (s.addSpan r a b).serving q = s.serving q := by
  unfold State.serving; rw [State.addSpan_claims]
@[simp] theorem State.addSpan_claimants (s : State) (r : Region) (a b : Offset) (q : Region) : (s.addSpan r a b).claimants q = s.claimants q := by
  unfold State.claimants; rw [State.addSpan_claims]

/-! `State.addFull` -/

@[simp] theorem State.addFull_port (s : State) (r : Region) : (s.addFull r).port = s.port := by
  unfold State.addFull; try dsimp only
  (repeat' split) <;> simp
@[simp] theorem State.addFull_image (s : State) (r : Region) : (s.addFull r).image = s.image := by
  unfold State.addFull; try dsimp only
  (repeat' split) <;> simp
@[simp] theorem State.addFull_dir (s : State) (r : Region) : (s.addFull r).dir = s.dir := by
  unfold State.addFull; try dsimp only
  (repeat' split) <;> simp
@[simp] theorem State.addFull_claims (s : State) (r : Region) : (s.addFull r).claims = s.claims := by
  unfold State.addFull; try dsimp only
  (repeat' split) <;> simp
@[simp] theorem State.addFull_roster (s : State) (r : Region) : (s.addFull r).roster = s.roster := by
  unfold State.addFull; try dsimp only
  (repeat' split) <;> simp
@[simp] theorem State.addFull_ctl (s : State) (r : Region) : (s.addFull r).ctl = s.ctl := by
  unfold State.addFull; try dsimp only
  (repeat' split) <;> simp
@[simp] theorem State.addFull_parked (s : State) (r : Region) : (s.addFull r).parked = s.parked := by
  unfold State.addFull; try dsimp only
  (repeat' split) <;> simp
@[simp] theorem State.addFull_cmd (s : State) (r : Region) : (s.addFull r).cmd = s.cmd := by
  unfold State.addFull; try dsimp only
  (repeat' split) <;> simp
@[simp] theorem State.addFull_line (s : State) (r : Region) : (s.addFull r).line = s.line := by
  unfold State.addFull; try dsimp only
  (repeat' split) <;> simp
@[simp] theorem State.addFull_pending (s : State) (r : Region) : (s.addFull r).pending = s.pending := by
  unfold State.addFull; try dsimp only
  (repeat' split) <;> simp
@[simp] theorem State.addFull_entry (s : State) (r : Region) (q : Region) : (s.addFull r).entry q = s.entry q := by
  unfold State.entry; rw [State.addFull_dir]
@[simp] theorem State.addFull_peer (s : State) (r : Region) (q : Station) : (s.addFull r).peer q = s.peer q := by
  unfold State.peer; rw [State.addFull_roster]
@[simp] theorem State.addFull_record (s : State) (r : Region) (q : Region) : (s.addFull r).record q = s.record q := by
  unfold State.record; rw [State.addFull_claims]
@[simp] theorem State.addFull_serving (s : State) (r : Region) (q : Region) : (s.addFull r).serving q = s.serving q := by
  unfold State.serving; rw [State.addFull_claims]
@[simp] theorem State.addFull_claimants (s : State) (r : Region) (q : Region) : (s.addFull r).claimants q = s.claimants q := by
  unfold State.claimants; rw [State.addFull_claims]

/-! `State.markStale` -/

@[simp] theorem State.markStale_port (s : State) (r : Region) (d : StaleDetail) : (s.markStale r d).port = s.port := by
  unfold State.markStale; try dsimp only
  (repeat' split) <;> simp
@[simp] theorem State.markStale_image (s : State) (r : Region) (d : StaleDetail) : (s.markStale r d).image = s.image := by
  unfold State.markStale; try dsimp only
  (repeat' split) <;> simp
@[simp] theorem State.markStale_pub (s : State) (r : Region) (d : StaleDetail) : (s.markStale r d).pub = s.pub := by
  unfold State.markStale; try dsimp only
  (repeat' split) <;> simp
@[simp] theorem State.markStale_claims (s : State) (r : Region) (d : StaleDetail) : (s.markStale r d).claims = s.claims := by
  unfold State.markStale; try dsimp only
  (repeat' split) <;> simp
@[simp] theorem State.markStale_roster (s : State) (r : Region) (d : StaleDetail) : (s.markStale r d).roster = s.roster := by
  unfold State.markStale; try dsimp only
  (repeat' split) <;> simp
@[simp] theorem State.markStale_ctl (s : State) (r : Region) (d : StaleDetail) : (s.markStale r d).ctl = s.ctl := by
  unfold State.markStale; try dsimp only
  (repeat' split) <;> simp
@[simp] theorem State.markStale_parked (s : State) (r : Region) (d : StaleDetail) : (s.markStale r d).parked = s.parked := by
  unfold State.markStale; try dsimp only
  (repeat' split) <;> simp
@[simp] theorem State.markStale_line (s : State) (r : Region) (d : StaleDetail) : (s.markStale r d).line = s.line := by
  unfold State.markStale; try dsimp only
  (repeat' split) <;> simp
@[simp] theorem State.markStale_pending (s : State) (r : Region) (d : StaleDetail) : (s.markStale r d).pending = s.pending := by
  unfold State.markStale; try dsimp only
  (repeat' split) <;> simp
@[simp] theorem State.markStale_peer (s : State) (r : Region) (d : StaleDetail) (q : Station) : (s.markStale r d).peer q = s.peer q := by
  unfold State.peer; rw [State.markStale_roster]
@[simp] theorem State.markStale_pubEntry (s : State) (r : Region) (d : StaleDetail) (q : Region) : (s.markStale r d).pubEntry q = s.pubEntry q := by
  unfold State.pubEntry; rw [State.markStale_pub]
@[simp] theorem State.markStale_record (s : State) (r : Region) (d : StaleDetail) (q : Region) : (s.markStale r d).record q = s.record q := by
  unfold State.record; rw [State.markStale_claims]
@[simp] theorem State.markStale_serving (s : State) (r : Region) (d : StaleDetail) (q : Region) : (s.markStale r d).serving q = s.serving q := by
  unfold State.serving; rw [State.markStale_claims]
@[simp] theorem State.markStale_claimants (s : State) (r : Region) (d : StaleDetail) (q : Region) : (s.markStale r d).claimants q = s.claimants q := by
  unfold State.claimants; rw [State.markStale_claims]

/-! `State.startTenure` -/

@[simp] theorem State.startTenure_port (s : State) (r : Region) (q : Half) : (s.startTenure r q).port = s.port := by simp [State.startTenure]
@[simp] theorem State.startTenure_image (s : State) (r : Region) (q : Half) : (s.startTenure r q).image = s.image := by simp [State.startTenure]
@[simp] theorem State.startTenure_pub (s : State) (r : Region) (q : Half) : (s.startTenure r q).pub = s.pub := by simp [State.startTenure]
@[simp] theorem State.startTenure_roster (s : State) (r : Region) (q : Half) : (s.startTenure r q).roster = s.roster := by simp [State.startTenure]
@[simp] theorem State.startTenure_ctl (s : State) (r : Region) (q : Half) : (s.startTenure r q).ctl = s.ctl := by simp [State.startTenure]
@[simp] theorem State.startTenure_parked (s : State) (r : Region) (q : Half) : (s.startTenure r q).parked = s.parked := by simp [State.startTenure]
@[simp] theorem State.startTenure_cmd (s : State) (r : Region) (q : Half) : (s.startTenure r q).cmd = s.cmd := by simp [State.startTenure]
@[simp] theorem State.startTenure_line (s : State) (r : Region) (q : Half) : (s.startTenure r q).line = s.line := by simp [State.startTenure]
@[simp] theorem State.startTenure_pending (s : State) (r : Region) (q : Half) : (s.startTenure r q).pending = s.pending := by simp [State.startTenure]
@[simp] theorem State.startTenure_peer (s : State) (r : Region) (n : Half) (q : Station) : (s.startTenure r n).peer q = s.peer q := by
  unfold State.peer; rw [State.startTenure_roster]
@[simp] theorem State.startTenure_pubEntry (s : State) (r : Region) (n : Half) (q : Region) : (s.startTenure r n).pubEntry q = s.pubEntry q := by
  unfold State.pubEntry; rw [State.startTenure_pub]
@[simp] theorem State.startTenure_record (s : State) (r : Region) (n : Half) (q : Region) : (s.startTenure r n).record q = s.record q := by simp [State.startTenure]
@[simp] theorem State.startTenure_claimants (s : State) (r : Region) (n : Half) (q : Region) : (s.startTenure r n).claimants q = s.claimants q := by simp [State.startTenure]

/-! `State.follow` -/

@[simp] theorem State.follow_port (s : State) (r : Region) (p : Station) (q : Half) : (s.follow r p q).port = s.port := by simp [State.follow]
@[simp] theorem State.follow_image (s : State) (r : Region) (p : Station) (q : Half) : (s.follow r p q).image = s.image := by simp [State.follow]
@[simp] theorem State.follow_pub (s : State) (r : Region) (p : Station) (q : Half) : (s.follow r p q).pub = s.pub := by simp [State.follow]
@[simp] theorem State.follow_claims (s : State) (r : Region) (p : Station) (q : Half) : (s.follow r p q).claims = s.claims := by simp [State.follow]
@[simp] theorem State.follow_roster (s : State) (r : Region) (p : Station) (q : Half) : (s.follow r p q).roster = s.roster := by simp [State.follow]
@[simp] theorem State.follow_ctl (s : State) (r : Region) (p : Station) (q : Half) : (s.follow r p q).ctl = s.ctl := by simp [State.follow]
@[simp] theorem State.follow_parked (s : State) (r : Region) (p : Station) (q : Half) : (s.follow r p q).parked = s.parked := by simp [State.follow]
@[simp] theorem State.follow_cmd (s : State) (r : Region) (p : Station) (q : Half) : (s.follow r p q).cmd = s.cmd := by simp [State.follow]
@[simp] theorem State.follow_line (s : State) (r : Region) (p : Station) (q : Half) : (s.follow r p q).line = s.line := by simp [State.follow]
@[simp] theorem State.follow_pending (s : State) (r : Region) (p : Station) (q : Half) : (s.follow r p q).pending = s.pending := by simp [State.follow]
@[simp] theorem State.follow_peer (s : State) (r : Region) (p : Station) (n : Half) (q : Station) : (s.follow r p n).peer q = s.peer q := by
  unfold State.peer; rw [State.follow_roster]
@[simp] theorem State.follow_pubEntry (s : State) (r : Region) (p : Station) (n : Half) (q : Region) : (s.follow r p n).pubEntry q = s.pubEntry q := by
  unfold State.pubEntry; rw [State.follow_pub]
@[simp] theorem State.follow_record (s : State) (r : Region) (p : Station) (n : Half) (q : Region) : (s.follow r p n).record q = s.record q := by
  unfold State.record; rw [State.follow_claims]
@[simp] theorem State.follow_serving (s : State) (r : Region) (p : Station) (n : Half) (q : Region) : (s.follow r p n).serving q = s.serving q := by
  unfold State.serving; rw [State.follow_claims]
@[simp] theorem State.follow_claimants (s : State) (r : Region) (p : Station) (n : Half) (q : Region) : (s.follow r p n).claimants q = s.claimants q := by
  unfold State.claimants; rw [State.follow_claims]

/-! `State.needClaim` -/

@[simp] theorem State.needClaim_port (s : State) (r : Region) : (s.needClaim r).port = s.port := by
  unfold State.needClaim; try dsimp only
  (repeat' split) <;> simp
@[simp] theorem State.needClaim_image (s : State) (r : Region) : (s.needClaim r).image = s.image := by
  unfold State.needClaim; try dsimp only
  (repeat' split) <;> simp
@[simp] theorem State.needClaim_dir (s : State) (r : Region) : (s.needClaim r).dir = s.dir := by
  unfold State.needClaim; try dsimp only
  (repeat' split) <;> simp
@[simp] theorem State.needClaim_pub (s : State) (r : Region) : (s.needClaim r).pub = s.pub := by
  unfold State.needClaim; try dsimp only
  (repeat' split) <;> simp
@[simp] theorem State.needClaim_claims (s : State) (r : Region) : (s.needClaim r).claims = s.claims := by
  unfold State.needClaim; try dsimp only
  (repeat' split) <;> simp
@[simp] theorem State.needClaim_roster (s : State) (r : Region) : (s.needClaim r).roster = s.roster := by
  unfold State.needClaim; try dsimp only
  (repeat' split) <;> simp
@[simp] theorem State.needClaim_ctl (s : State) (r : Region) : (s.needClaim r).ctl = s.ctl := by
  unfold State.needClaim; try dsimp only
  (repeat' split) <;> simp
@[simp] theorem State.needClaim_parked (s : State) (r : Region) : (s.needClaim r).parked = s.parked := by
  unfold State.needClaim; try dsimp only
  (repeat' split) <;> simp
@[simp] theorem State.needClaim_cmd (s : State) (r : Region) : (s.needClaim r).cmd = s.cmd := by
  unfold State.needClaim; try dsimp only
  (repeat' split) <;> simp
@[simp] theorem State.needClaim_pending (s : State) (r : Region) : (s.needClaim r).pending = s.pending := by
  unfold State.needClaim; try dsimp only
  (repeat' split) <;> simp
@[simp] theorem State.needClaim_entry (s : State) (r : Region) (q : Region) : (s.needClaim r).entry q = s.entry q := by
  unfold State.entry; rw [State.needClaim_dir]
@[simp] theorem State.needClaim_peer (s : State) (r : Region) (q : Station) : (s.needClaim r).peer q = s.peer q := by
  unfold State.peer; rw [State.needClaim_roster]
@[simp] theorem State.needClaim_pubEntry (s : State) (r : Region) (q : Region) : (s.needClaim r).pubEntry q = s.pubEntry q := by
  unfold State.pubEntry; rw [State.needClaim_pub]
@[simp] theorem State.needClaim_record (s : State) (r : Region) (q : Region) : (s.needClaim r).record q = s.record q := by
  unfold State.record; rw [State.needClaim_claims]
@[simp] theorem State.needClaim_serving (s : State) (r : Region) (q : Region) : (s.needClaim r).serving q = s.serving q := by
  unfold State.serving; rw [State.needClaim_claims]
@[simp] theorem State.needClaim_claimants (s : State) (r : Region) (q : Region) : (s.needClaim r).claimants q = s.claimants q := by
  unfold State.claimants; rw [State.needClaim_claims]

/-! `State.endRecordFrames` -/

@[simp] theorem State.endRecordFrames_port (s : State) (r : Region) : (s.endRecordFrames r).port = s.port := by simp [State.endRecordFrames]
@[simp] theorem State.endRecordFrames_image (s : State) (r : Region) : (s.endRecordFrames r).image = s.image := by simp [State.endRecordFrames]
@[simp] theorem State.endRecordFrames_dir (s : State) (r : Region) : (s.endRecordFrames r).dir = s.dir := by simp [State.endRecordFrames]
@[simp] theorem State.endRecordFrames_pub (s : State) (r : Region) : (s.endRecordFrames r).pub = s.pub := by simp [State.endRecordFrames]
@[simp] theorem State.endRecordFrames_claims (s : State) (r : Region) : (s.endRecordFrames r).claims = s.claims := by simp [State.endRecordFrames]
@[simp] theorem State.endRecordFrames_roster (s : State) (r : Region) : (s.endRecordFrames r).roster = s.roster := by simp [State.endRecordFrames]
@[simp] theorem State.endRecordFrames_ctl (s : State) (r : Region) : (s.endRecordFrames r).ctl = s.ctl := by simp [State.endRecordFrames]
@[simp] theorem State.endRecordFrames_parked (s : State) (r : Region) : (s.endRecordFrames r).parked = s.parked := by simp [State.endRecordFrames]
@[simp] theorem State.endRecordFrames_cmd (s : State) (r : Region) : (s.endRecordFrames r).cmd = s.cmd := by simp [State.endRecordFrames]
@[simp] theorem State.endRecordFrames_pending (s : State) (r : Region) : (s.endRecordFrames r).pending = s.pending := by simp [State.endRecordFrames]
@[simp] theorem State.endRecordFrames_entry (s : State) (r : Region) (q : Region) : (s.endRecordFrames r).entry q = s.entry q := by
  unfold State.entry; rw [State.endRecordFrames_dir]
@[simp] theorem State.endRecordFrames_peer (s : State) (r : Region) (q : Station) : (s.endRecordFrames r).peer q = s.peer q := by
  unfold State.peer; rw [State.endRecordFrames_roster]
@[simp] theorem State.endRecordFrames_pubEntry (s : State) (r : Region) (q : Region) : (s.endRecordFrames r).pubEntry q = s.pubEntry q := by
  unfold State.pubEntry; rw [State.endRecordFrames_pub]
@[simp] theorem State.endRecordFrames_record (s : State) (r : Region) (q : Region) : (s.endRecordFrames r).record q = s.record q := by
  unfold State.record; rw [State.endRecordFrames_claims]
@[simp] theorem State.endRecordFrames_serving (s : State) (r : Region) (q : Region) : (s.endRecordFrames r).serving q = s.serving q := by
  unfold State.serving; rw [State.endRecordFrames_claims]
@[simp] theorem State.endRecordFrames_claimants (s : State) (r : Region) (q : Region) : (s.endRecordFrames r).claimants q = s.claimants q := by
  unfold State.claimants; rw [State.endRecordFrames_claims]

/-! `State.freeRecord` -/

@[simp] theorem State.freeRecord_port (s : State) (r : Region) : (s.freeRecord r).port = s.port := by simp [State.freeRecord]
@[simp] theorem State.freeRecord_image (s : State) (r : Region) : (s.freeRecord r).image = s.image := by simp [State.freeRecord]
@[simp] theorem State.freeRecord_dir (s : State) (r : Region) : (s.freeRecord r).dir = s.dir := by simp [State.freeRecord]
@[simp] theorem State.freeRecord_pub (s : State) (r : Region) : (s.freeRecord r).pub = s.pub := by simp [State.freeRecord]
@[simp] theorem State.freeRecord_roster (s : State) (r : Region) : (s.freeRecord r).roster = s.roster := by simp [State.freeRecord]
@[simp] theorem State.freeRecord_ctl (s : State) (r : Region) : (s.freeRecord r).ctl = s.ctl := by simp [State.freeRecord]
@[simp] theorem State.freeRecord_parked (s : State) (r : Region) : (s.freeRecord r).parked = s.parked := by simp [State.freeRecord]
@[simp] theorem State.freeRecord_cmd (s : State) (r : Region) : (s.freeRecord r).cmd = s.cmd := by simp [State.freeRecord]
@[simp] theorem State.freeRecord_pending (s : State) (r : Region) : (s.freeRecord r).pending = s.pending := by simp [State.freeRecord]
@[simp] theorem State.freeRecord_entry (s : State) (r : Region) (q : Region) : (s.freeRecord r).entry q = s.entry q := by
  unfold State.entry; rw [State.freeRecord_dir]
@[simp] theorem State.freeRecord_peer (s : State) (r : Region) (q : Station) : (s.freeRecord r).peer q = s.peer q := by
  unfold State.peer; rw [State.freeRecord_roster]
@[simp] theorem State.freeRecord_pubEntry (s : State) (r : Region) (q : Region) : (s.freeRecord r).pubEntry q = s.pubEntry q := by
  unfold State.pubEntry; rw [State.freeRecord_pub]
@[simp] theorem State.freeRecord_serving (s : State) (r : Region) (q : Region) : (s.freeRecord r).serving q = s.serving q := by simp [State.freeRecord]
@[simp] theorem State.freeRecord_claimants (s : State) (r : Region) (q : Region) : (s.freeRecord r).claimants q = s.claimants q := by simp [State.freeRecord]

/-! `State.requestClaim` -/

@[simp] theorem State.requestClaim_port (s : State) (r : Region) (o : Origin) : (s.requestClaim r o).port = s.port := by simp [State.requestClaim]
@[simp] theorem State.requestClaim_image (s : State) (r : Region) (o : Origin) : (s.requestClaim r o).image = s.image := by simp [State.requestClaim]
@[simp] theorem State.requestClaim_dir (s : State) (r : Region) (o : Origin) : (s.requestClaim r o).dir = s.dir := by simp [State.requestClaim]
@[simp] theorem State.requestClaim_pub (s : State) (r : Region) (o : Origin) : (s.requestClaim r o).pub = s.pub := by simp [State.requestClaim]
@[simp] theorem State.requestClaim_roster (s : State) (r : Region) (o : Origin) : (s.requestClaim r o).roster = s.roster := by simp [State.requestClaim]
@[simp] theorem State.requestClaim_ctl (s : State) (r : Region) (o : Origin) : (s.requestClaim r o).ctl = s.ctl := by simp [State.requestClaim]
@[simp] theorem State.requestClaim_parked (s : State) (r : Region) (o : Origin) : (s.requestClaim r o).parked = s.parked := by simp [State.requestClaim]
@[simp] theorem State.requestClaim_cmd (s : State) (r : Region) (o : Origin) : (s.requestClaim r o).cmd = s.cmd := by simp [State.requestClaim]
@[simp] theorem State.requestClaim_pending (s : State) (r : Region) (o : Origin) : (s.requestClaim r o).pending = s.pending := by simp [State.requestClaim]
@[simp] theorem State.requestClaim_entry (s : State) (r : Region) (o : Origin) (q : Region) : (s.requestClaim r o).entry q = s.entry q := by
  unfold State.entry; rw [State.requestClaim_dir]
@[simp] theorem State.requestClaim_peer (s : State) (r : Region) (o : Origin) (q : Station) : (s.requestClaim r o).peer q = s.peer q := by
  unfold State.peer; rw [State.requestClaim_roster]
@[simp] theorem State.requestClaim_pubEntry (s : State) (r : Region) (o : Origin) (q : Region) : (s.requestClaim r o).pubEntry q = s.pubEntry q := by
  unfold State.pubEntry; rw [State.requestClaim_pub]
@[simp] theorem State.requestClaim_serving (s : State) (r : Region) (o : Origin) (q : Region) : (s.requestClaim r o).serving q = s.serving q := by simp [State.requestClaim]
@[simp] theorem State.requestClaim_claimants (s : State) (r : Region) (o : Origin) (q : Region) : (s.requestClaim r o).claimants q = s.claimants q := by simp [State.requestClaim]

/-! `State.dropClaimMark` -/

@[simp] theorem State.dropClaimMark_port (s : State) (r : Region) : (s.dropClaimMark r).port = s.port := by simp [State.dropClaimMark]
@[simp] theorem State.dropClaimMark_image (s : State) (r : Region) : (s.dropClaimMark r).image = s.image := by simp [State.dropClaimMark]
@[simp] theorem State.dropClaimMark_dir (s : State) (r : Region) : (s.dropClaimMark r).dir = s.dir := by simp [State.dropClaimMark]
@[simp] theorem State.dropClaimMark_pub (s : State) (r : Region) : (s.dropClaimMark r).pub = s.pub := by simp [State.dropClaimMark]
@[simp] theorem State.dropClaimMark_claims (s : State) (r : Region) : (s.dropClaimMark r).claims = s.claims := by simp [State.dropClaimMark]
@[simp] theorem State.dropClaimMark_roster (s : State) (r : Region) : (s.dropClaimMark r).roster = s.roster := by simp [State.dropClaimMark]
@[simp] theorem State.dropClaimMark_ctl (s : State) (r : Region) : (s.dropClaimMark r).ctl = s.ctl := by simp [State.dropClaimMark]
@[simp] theorem State.dropClaimMark_parked (s : State) (r : Region) : (s.dropClaimMark r).parked = s.parked := by simp [State.dropClaimMark]
@[simp] theorem State.dropClaimMark_cmd (s : State) (r : Region) : (s.dropClaimMark r).cmd = s.cmd := by simp [State.dropClaimMark]
@[simp] theorem State.dropClaimMark_pending (s : State) (r : Region) : (s.dropClaimMark r).pending = s.pending := by simp [State.dropClaimMark]
@[simp] theorem State.dropClaimMark_entry (s : State) (r : Region) (q : Region) : (s.dropClaimMark r).entry q = s.entry q := by
  unfold State.entry; rw [State.dropClaimMark_dir]
@[simp] theorem State.dropClaimMark_peer (s : State) (r : Region) (q : Station) : (s.dropClaimMark r).peer q = s.peer q := by
  unfold State.peer; rw [State.dropClaimMark_roster]
@[simp] theorem State.dropClaimMark_pubEntry (s : State) (r : Region) (q : Region) : (s.dropClaimMark r).pubEntry q = s.pubEntry q := by
  unfold State.pubEntry; rw [State.dropClaimMark_pub]
@[simp] theorem State.dropClaimMark_record (s : State) (r : Region) (q : Region) : (s.dropClaimMark r).record q = s.record q := by
  unfold State.record; rw [State.dropClaimMark_claims]
@[simp] theorem State.dropClaimMark_serving (s : State) (r : Region) (q : Region) : (s.dropClaimMark r).serving q = s.serving q := by
  unfold State.serving; rw [State.dropClaimMark_claims]
@[simp] theorem State.dropClaimMark_claimants (s : State) (r : Region) (q : Region) : (s.dropClaimMark r).claimants q = s.claimants q := by
  unfold State.claimants; rw [State.dropClaimMark_claims]

/-! `State.toOrphanClaim` -/

@[simp] theorem State.toOrphanClaim_port (s : State) (r : Region) : (s.toOrphanClaim r).port = s.port := by
  unfold State.toOrphanClaim; try dsimp only
  (repeat' split) <;> simp
@[simp] theorem State.toOrphanClaim_image (s : State) (r : Region) : (s.toOrphanClaim r).image = s.image := by
  unfold State.toOrphanClaim; try dsimp only
  (repeat' split) <;> simp
@[simp] theorem State.toOrphanClaim_dir (s : State) (r : Region) : (s.toOrphanClaim r).dir = s.dir := by
  unfold State.toOrphanClaim; try dsimp only
  (repeat' split) <;> simp
@[simp] theorem State.toOrphanClaim_pub (s : State) (r : Region) : (s.toOrphanClaim r).pub = s.pub := by
  unfold State.toOrphanClaim; try dsimp only
  (repeat' split) <;> simp
@[simp] theorem State.toOrphanClaim_roster (s : State) (r : Region) : (s.toOrphanClaim r).roster = s.roster := by
  unfold State.toOrphanClaim; try dsimp only
  (repeat' split) <;> simp
@[simp] theorem State.toOrphanClaim_ctl (s : State) (r : Region) : (s.toOrphanClaim r).ctl = s.ctl := by
  unfold State.toOrphanClaim; try dsimp only
  (repeat' split) <;> simp
@[simp] theorem State.toOrphanClaim_parked (s : State) (r : Region) : (s.toOrphanClaim r).parked = s.parked := by
  unfold State.toOrphanClaim; try dsimp only
  (repeat' split) <;> simp
@[simp] theorem State.toOrphanClaim_cmd (s : State) (r : Region) : (s.toOrphanClaim r).cmd = s.cmd := by
  unfold State.toOrphanClaim; try dsimp only
  (repeat' split) <;> simp
@[simp] theorem State.toOrphanClaim_pending (s : State) (r : Region) : (s.toOrphanClaim r).pending = s.pending := by
  unfold State.toOrphanClaim; try dsimp only
  (repeat' split) <;> simp
@[simp] theorem State.toOrphanClaim_entry (s : State) (r : Region) (q : Region) : (s.toOrphanClaim r).entry q = s.entry q := by
  unfold State.entry; rw [State.toOrphanClaim_dir]
@[simp] theorem State.toOrphanClaim_peer (s : State) (r : Region) (q : Station) : (s.toOrphanClaim r).peer q = s.peer q := by
  unfold State.peer; rw [State.toOrphanClaim_roster]
@[simp] theorem State.toOrphanClaim_pubEntry (s : State) (r : Region) (q : Region) : (s.toOrphanClaim r).pubEntry q = s.pubEntry q := by
  unfold State.pubEntry; rw [State.toOrphanClaim_pub]
@[simp] theorem State.toOrphanClaim_serving (s : State) (r : Region) (q : Region) : (s.toOrphanClaim r).serving q = s.serving q := by
  unfold State.toOrphanClaim; try dsimp only
  (repeat' split) <;> simp
@[simp] theorem State.toOrphanClaim_claimants (s : State) (r : Region) (q : Region) : (s.toOrphanClaim r).claimants q = s.claimants q := by
  unfold State.toOrphanClaim; try dsimp only
  (repeat' split) <;> simp

/-! `State.toNormalClaim` -/

@[simp] theorem State.toNormalClaim_port (s : State) (r : Region) : (s.toNormalClaim r).port = s.port := by
  unfold State.toNormalClaim; try dsimp only
  (repeat' split) <;> simp
@[simp] theorem State.toNormalClaim_image (s : State) (r : Region) : (s.toNormalClaim r).image = s.image := by
  unfold State.toNormalClaim; try dsimp only
  (repeat' split) <;> simp
@[simp] theorem State.toNormalClaim_dir (s : State) (r : Region) : (s.toNormalClaim r).dir = s.dir := by
  unfold State.toNormalClaim; try dsimp only
  (repeat' split) <;> simp
@[simp] theorem State.toNormalClaim_pub (s : State) (r : Region) : (s.toNormalClaim r).pub = s.pub := by
  unfold State.toNormalClaim; try dsimp only
  (repeat' split) <;> simp
@[simp] theorem State.toNormalClaim_roster (s : State) (r : Region) : (s.toNormalClaim r).roster = s.roster := by
  unfold State.toNormalClaim; try dsimp only
  (repeat' split) <;> simp
@[simp] theorem State.toNormalClaim_ctl (s : State) (r : Region) : (s.toNormalClaim r).ctl = s.ctl := by
  unfold State.toNormalClaim; try dsimp only
  (repeat' split) <;> simp
@[simp] theorem State.toNormalClaim_parked (s : State) (r : Region) : (s.toNormalClaim r).parked = s.parked := by
  unfold State.toNormalClaim; try dsimp only
  (repeat' split) <;> simp
@[simp] theorem State.toNormalClaim_cmd (s : State) (r : Region) : (s.toNormalClaim r).cmd = s.cmd := by
  unfold State.toNormalClaim; try dsimp only
  (repeat' split) <;> simp
@[simp] theorem State.toNormalClaim_pending (s : State) (r : Region) : (s.toNormalClaim r).pending = s.pending := by
  unfold State.toNormalClaim; try dsimp only
  (repeat' split) <;> simp
@[simp] theorem State.toNormalClaim_entry (s : State) (r : Region) (q : Region) : (s.toNormalClaim r).entry q = s.entry q := by
  unfold State.entry; rw [State.toNormalClaim_dir]
@[simp] theorem State.toNormalClaim_peer (s : State) (r : Region) (q : Station) : (s.toNormalClaim r).peer q = s.peer q := by
  unfold State.peer; rw [State.toNormalClaim_roster]
@[simp] theorem State.toNormalClaim_pubEntry (s : State) (r : Region) (q : Region) : (s.toNormalClaim r).pubEntry q = s.pubEntry q := by
  unfold State.pubEntry; rw [State.toNormalClaim_pub]
@[simp] theorem State.toNormalClaim_serving (s : State) (r : Region) (q : Region) : (s.toNormalClaim r).serving q = s.serving q := by
  unfold State.toNormalClaim; try dsimp only
  (repeat' split) <;> simp
@[simp] theorem State.toNormalClaim_claimants (s : State) (r : Region) (q : Region) : (s.toNormalClaim r).claimants q = s.claimants q := by
  unfold State.toNormalClaim; try dsimp only
  (repeat' split) <;> simp

/-! `State.failRecord` -/

@[simp] theorem State.failRecord_port (s : State) (r : Region) (w : FailReason) : (s.failRecord r w).port = s.port := by
  unfold State.failRecord; try dsimp only
  (repeat' split) <;> simp
@[simp] theorem State.failRecord_image (s : State) (r : Region) (w : FailReason) : (s.failRecord r w).image = s.image := by
  unfold State.failRecord; try dsimp only
  (repeat' split) <;> simp
@[simp] theorem State.failRecord_dir (s : State) (r : Region) (w : FailReason) : (s.failRecord r w).dir = s.dir := by
  unfold State.failRecord; try dsimp only
  (repeat' split) <;> simp
@[simp] theorem State.failRecord_pub (s : State) (r : Region) (w : FailReason) : (s.failRecord r w).pub = s.pub := by
  unfold State.failRecord; try dsimp only
  (repeat' split) <;> simp
@[simp] theorem State.failRecord_roster (s : State) (r : Region) (w : FailReason) : (s.failRecord r w).roster = s.roster := by
  unfold State.failRecord; try dsimp only
  (repeat' split) <;> simp
@[simp] theorem State.failRecord_ctl (s : State) (r : Region) (w : FailReason) : (s.failRecord r w).ctl = s.ctl := by
  unfold State.failRecord; try dsimp only
  (repeat' split) <;> simp
@[simp] theorem State.failRecord_pending (s : State) (r : Region) (w : FailReason) : (s.failRecord r w).pending = s.pending := by
  unfold State.failRecord; try dsimp only
  (repeat' split) <;> simp
@[simp] theorem State.failRecord_entry (s : State) (r : Region) (w : FailReason) (q : Region) : (s.failRecord r w).entry q = s.entry q := by
  unfold State.entry; rw [State.failRecord_dir]
@[simp] theorem State.failRecord_peer (s : State) (r : Region) (w : FailReason) (q : Station) : (s.failRecord r w).peer q = s.peer q := by
  unfold State.peer; rw [State.failRecord_roster]
@[simp] theorem State.failRecord_pubEntry (s : State) (r : Region) (w : FailReason) (q : Region) : (s.failRecord r w).pubEntry q = s.pubEntry q := by
  unfold State.pubEntry; rw [State.failRecord_pub]
@[simp] theorem State.failRecord_serving (s : State) (r : Region) (w : FailReason) (q : Region) : (s.failRecord r w).serving q = s.serving q := by
  unfold State.failRecord; try dsimp only
  (repeat' split) <;> simp
@[simp] theorem State.failRecord_claimants (s : State) (r : Region) (w : FailReason) (q : Region) : (s.failRecord r w).claimants q = s.claimants q := by
  unfold State.failRecord; try dsimp only
  (repeat' split) <;> simp

/-! `State.exhaust` -/

@[simp] theorem State.exhaust_port (s : State) (r : Region) : (s.exhaust r).port = s.port := by
  unfold State.exhaust; try dsimp only
  (repeat' split) <;> simp
@[simp] theorem State.exhaust_image (s : State) (r : Region) : (s.exhaust r).image = s.image := by
  unfold State.exhaust; try dsimp only
  (repeat' split) <;> simp
@[simp] theorem State.exhaust_dir (s : State) (r : Region) : (s.exhaust r).dir = s.dir := by
  unfold State.exhaust; try dsimp only
  (repeat' split) <;> simp
@[simp] theorem State.exhaust_pub (s : State) (r : Region) : (s.exhaust r).pub = s.pub := by
  unfold State.exhaust; try dsimp only
  (repeat' split) <;> simp
@[simp] theorem State.exhaust_roster (s : State) (r : Region) : (s.exhaust r).roster = s.roster := by
  unfold State.exhaust; try dsimp only
  (repeat' split) <;> simp
@[simp] theorem State.exhaust_ctl (s : State) (r : Region) : (s.exhaust r).ctl = s.ctl := by
  unfold State.exhaust; try dsimp only
  (repeat' split) <;> simp
@[simp] theorem State.exhaust_pending (s : State) (r : Region) : (s.exhaust r).pending = s.pending := by
  unfold State.exhaust; try dsimp only
  (repeat' split) <;> simp
@[simp] theorem State.exhaust_entry (s : State) (r : Region) (q : Region) : (s.exhaust r).entry q = s.entry q := by
  unfold State.entry; rw [State.exhaust_dir]
@[simp] theorem State.exhaust_peer (s : State) (r : Region) (q : Station) : (s.exhaust r).peer q = s.peer q := by
  unfold State.peer; rw [State.exhaust_roster]
@[simp] theorem State.exhaust_pubEntry (s : State) (r : Region) (q : Region) : (s.exhaust r).pubEntry q = s.pubEntry q := by
  unfold State.pubEntry; rw [State.exhaust_pub]
@[simp] theorem State.exhaust_serving (s : State) (r : Region) (q : Region) : (s.exhaust r).serving q = s.serving q := by
  unfold State.exhaust; try dsimp only
  (repeat' split) <;> simp
@[simp] theorem State.exhaust_claimants (s : State) (r : Region) (q : Region) : (s.exhaust r).claimants q = s.claimants q := by
  unfold State.exhaust; try dsimp only
  (repeat' split) <;> simp

/-! `State.applyParked` -/

@[simp] theorem State.applyParked_port (s : State) (r : Region) : (s.applyParked r).port = s.port := by
  unfold State.applyParked; try dsimp only
  (repeat' split) <;> simp
@[simp] theorem State.applyParked_dir (s : State) (r : Region) : (s.applyParked r).dir = s.dir := by
  unfold State.applyParked; try dsimp only
  (repeat' split) <;> simp
@[simp] theorem State.applyParked_claims (s : State) (r : Region) : (s.applyParked r).claims = s.claims := by
  unfold State.applyParked; try dsimp only
  (repeat' split) <;> simp
@[simp] theorem State.applyParked_roster (s : State) (r : Region) : (s.applyParked r).roster = s.roster := by
  unfold State.applyParked; try dsimp only
  (repeat' split) <;> simp
@[simp] theorem State.applyParked_ctl (s : State) (r : Region) : (s.applyParked r).ctl = s.ctl := by
  unfold State.applyParked; try dsimp only
  (repeat' split) <;> simp
@[simp] theorem State.applyParked_cmd (s : State) (r : Region) : (s.applyParked r).cmd = s.cmd := by
  unfold State.applyParked; try dsimp only
  (repeat' split) <;> simp
@[simp] theorem State.applyParked_line (s : State) (r : Region) : (s.applyParked r).line = s.line := by
  unfold State.applyParked; try dsimp only
  (repeat' split) <;> simp
@[simp] theorem State.applyParked_pending (s : State) (r : Region) : (s.applyParked r).pending = s.pending := by
  unfold State.applyParked; try dsimp only
  (repeat' split) <;> simp
@[simp] theorem State.applyParked_entry (s : State) (r : Region) (q : Region) : (s.applyParked r).entry q = s.entry q := by
  unfold State.entry; rw [State.applyParked_dir]
@[simp] theorem State.applyParked_peer (s : State) (r : Region) (q : Station) : (s.applyParked r).peer q = s.peer q := by
  unfold State.peer; rw [State.applyParked_roster]
@[simp] theorem State.applyParked_record (s : State) (r : Region) (q : Region) : (s.applyParked r).record q = s.record q := by
  unfold State.record; rw [State.applyParked_claims]
@[simp] theorem State.applyParked_serving (s : State) (r : Region) (q : Region) : (s.applyParked r).serving q = s.serving q := by
  unfold State.serving; rw [State.applyParked_claims]
@[simp] theorem State.applyParked_claimants (s : State) (r : Region) (q : Region) : (s.applyParked r).claimants q = s.claimants q := by
  unfold State.claimants; rw [State.applyParked_claims]

/-! `State.grantByHandover` -/

@[simp] theorem State.grantByHandover_port (s : State) (r : Region) (p : Station) : (s.grantByHandover r p).port = s.port := by
  unfold State.grantByHandover; try dsimp only
  (repeat' split) <;> simp
@[simp] theorem State.grantByHandover_dir (s : State) (r : Region) (p : Station) : (s.grantByHandover r p).dir = s.dir := by
  unfold State.grantByHandover; try dsimp only
  (repeat' split) <;> simp
@[simp] theorem State.grantByHandover_roster (s : State) (r : Region) (p : Station) : (s.grantByHandover r p).roster = s.roster := by
  unfold State.grantByHandover; try dsimp only
  (repeat' split) <;> simp
@[simp] theorem State.grantByHandover_ctl (s : State) (r : Region) (p : Station) : (s.grantByHandover r p).ctl = s.ctl := by
  unfold State.grantByHandover; try dsimp only
  (repeat' split) <;> simp
@[simp] theorem State.grantByHandover_pending (s : State) (r : Region) (p : Station) : (s.grantByHandover r p).pending = s.pending := by
  unfold State.grantByHandover; try dsimp only
  (repeat' split) <;> simp
@[simp] theorem State.grantByHandover_entry (s : State) (r : Region) (p : Station) (q : Region) : (s.grantByHandover r p).entry q = s.entry q := by
  unfold State.entry; rw [State.grantByHandover_dir]
@[simp] theorem State.grantByHandover_peer (s : State) (r : Region) (p : Station) (q : Station) : (s.grantByHandover r p).peer q = s.peer q := by
  unfold State.peer; rw [State.grantByHandover_roster]
@[simp] theorem State.grantByHandover_serving (s : State) (r : Region) (p : Station) (q : Region) : (s.grantByHandover r p).serving q = s.serving q := by
  unfold State.grantByHandover; try dsimp only
  (repeat' split) <;> simp
@[simp] theorem State.grantByHandover_claimants (s : State) (r : Region) (p : Station) (q : Region) : (s.grantByHandover r p).claimants q = s.claimants q := by
  unfold State.grantByHandover; try dsimp only
  (repeat' split) <;> simp

/-! `State.grantByTake` -/

@[simp] theorem State.grantByTake_port (s : State) (r : Region) (stale : Bool) : (s.grantByTake r stale).port = s.port := by
  unfold State.grantByTake; try dsimp only
  (repeat' split) <;> simp
@[simp] theorem State.grantByTake_dir (s : State) (r : Region) (stale : Bool) : (s.grantByTake r stale).dir = s.dir := by
  unfold State.grantByTake; try dsimp only
  (repeat' split) <;> simp
@[simp] theorem State.grantByTake_roster (s : State) (r : Region) (stale : Bool) : (s.grantByTake r stale).roster = s.roster := by
  unfold State.grantByTake; try dsimp only
  (repeat' split) <;> simp
@[simp] theorem State.grantByTake_ctl (s : State) (r : Region) (stale : Bool) : (s.grantByTake r stale).ctl = s.ctl := by
  unfold State.grantByTake; try dsimp only
  (repeat' split) <;> simp
@[simp] theorem State.grantByTake_pending (s : State) (r : Region) (stale : Bool) : (s.grantByTake r stale).pending = s.pending := by
  unfold State.grantByTake; try dsimp only
  (repeat' split) <;> simp
@[simp] theorem State.grantByTake_entry (s : State) (r : Region) (stale : Bool) (q : Region) : (s.grantByTake r stale).entry q = s.entry q := by
  unfold State.entry; rw [State.grantByTake_dir]
@[simp] theorem State.grantByTake_peer (s : State) (r : Region) (stale : Bool) (q : Station) : (s.grantByTake r stale).peer q = s.peer q := by
  unfold State.peer; rw [State.grantByTake_roster]
@[simp] theorem State.grantByTake_serving (s : State) (r : Region) (stale : Bool) (q : Region) : (s.grantByTake r stale).serving q = s.serving q := by
  unfold State.grantByTake; try dsimp only
  (repeat' split) <;> simp
@[simp] theorem State.grantByTake_claimants (s : State) (r : Region) (stale : Bool) (q : Region) : (s.grantByTake r stale).claimants q = s.claimants q := by
  unfold State.grantByTake; try dsimp only
  (repeat' split) <;> simp

/-! `State.serve` -/

@[simp] theorem State.serve_port (s : State) (r : Region) : (s.serve r).port = s.port := by
  unfold State.serve; try dsimp only
  (repeat' split) <;> simp
@[simp] theorem State.serve_image (s : State) (r : Region) : (s.serve r).image = s.image := by
  unfold State.serve; try dsimp only
  (repeat' split) <;> simp
@[simp] theorem State.serve_dir (s : State) (r : Region) : (s.serve r).dir = s.dir := by
  unfold State.serve; try dsimp only
  (repeat' split) <;> simp
@[simp] theorem State.serve_pub (s : State) (r : Region) : (s.serve r).pub = s.pub := by
  unfold State.serve; try dsimp only
  (repeat' split) <;> simp
@[simp] theorem State.serve_roster (s : State) (r : Region) : (s.serve r).roster = s.roster := by
  unfold State.serve; try dsimp only
  (repeat' split) <;> simp
@[simp] theorem State.serve_ctl (s : State) (r : Region) : (s.serve r).ctl = s.ctl := by
  unfold State.serve; try dsimp only
  (repeat' split) <;> simp
@[simp] theorem State.serve_parked (s : State) (r : Region) : (s.serve r).parked = s.parked := by
  unfold State.serve; try dsimp only
  (repeat' split) <;> simp
@[simp] theorem State.serve_cmd (s : State) (r : Region) : (s.serve r).cmd = s.cmd := by
  unfold State.serve; try dsimp only
  (repeat' split) <;> simp
@[simp] theorem State.serve_pending (s : State) (r : Region) : (s.serve r).pending = s.pending := by
  unfold State.serve; try dsimp only
  (repeat' split) <;> simp
@[simp] theorem State.serve_entry (s : State) (r : Region) (q : Region) : (s.serve r).entry q = s.entry q := by
  unfold State.entry; rw [State.serve_dir]
@[simp] theorem State.serve_peer (s : State) (r : Region) (q : Station) : (s.serve r).peer q = s.peer q := by
  unfold State.peer; rw [State.serve_roster]
@[simp] theorem State.serve_pubEntry (s : State) (r : Region) (q : Region) : (s.serve r).pubEntry q = s.pubEntry q := by
  unfold State.pubEntry; rw [State.serve_pub]
@[simp] theorem State.serve_record (s : State) (r : Region) (q : Region) : (s.serve r).record q = s.record q := by
  unfold State.serve; try dsimp only
  (repeat' split) <;> simp
@[simp] theorem State.serve_claimants (s : State) (r : Region) (q : Region) : (s.serve r).claimants q = s.claimants q := by
  unfold State.serve; try dsimp only
  (repeat' split) <;> simp

/-! `State.requestRelease` -/

@[simp] theorem State.requestRelease_port (s : State) (r : Region) : (s.requestRelease r).port = s.port := by
  unfold State.requestRelease; try dsimp only
  (repeat' split) <;> simp
@[simp] theorem State.requestRelease_image (s : State) (r : Region) : (s.requestRelease r).image = s.image := by
  unfold State.requestRelease; try dsimp only
  (repeat' split) <;> simp
@[simp] theorem State.requestRelease_pub (s : State) (r : Region) : (s.requestRelease r).pub = s.pub := by
  unfold State.requestRelease; try dsimp only
  (repeat' split) <;> simp
@[simp] theorem State.requestRelease_claims (s : State) (r : Region) : (s.requestRelease r).claims = s.claims := by
  unfold State.requestRelease; try dsimp only
  (repeat' split) <;> simp
@[simp] theorem State.requestRelease_roster (s : State) (r : Region) : (s.requestRelease r).roster = s.roster := by
  unfold State.requestRelease; try dsimp only
  (repeat' split) <;> simp
@[simp] theorem State.requestRelease_ctl (s : State) (r : Region) : (s.requestRelease r).ctl = s.ctl := by
  unfold State.requestRelease; try dsimp only
  (repeat' split) <;> simp
@[simp] theorem State.requestRelease_parked (s : State) (r : Region) : (s.requestRelease r).parked = s.parked := by
  unfold State.requestRelease; try dsimp only
  (repeat' split) <;> simp
@[simp] theorem State.requestRelease_cmd (s : State) (r : Region) : (s.requestRelease r).cmd = s.cmd := by
  unfold State.requestRelease; try dsimp only
  (repeat' split) <;> simp
@[simp] theorem State.requestRelease_pending (s : State) (r : Region) : (s.requestRelease r).pending = s.pending := by
  unfold State.requestRelease; try dsimp only
  (repeat' split) <;> simp
@[simp] theorem State.requestRelease_peer (s : State) (r : Region) (q : Station) : (s.requestRelease r).peer q = s.peer q := by
  unfold State.peer; rw [State.requestRelease_roster]
@[simp] theorem State.requestRelease_pubEntry (s : State) (r : Region) (q : Region) : (s.requestRelease r).pubEntry q = s.pubEntry q := by
  unfold State.pubEntry; rw [State.requestRelease_pub]
@[simp] theorem State.requestRelease_record (s : State) (r : Region) (q : Region) : (s.requestRelease r).record q = s.record q := by
  unfold State.record; rw [State.requestRelease_claims]
@[simp] theorem State.requestRelease_serving (s : State) (r : Region) (q : Region) : (s.requestRelease r).serving q = s.serving q := by
  unfold State.serving; rw [State.requestRelease_claims]
@[simp] theorem State.requestRelease_claimants (s : State) (r : Region) (q : Region) : (s.requestRelease r).claimants q = s.claimants q := by
  unfold State.claimants; rw [State.requestRelease_claims]

/-! `State.releaseIfLeaving` -/

@[simp] theorem State.releaseIfLeaving_port (s : State) (r : Region) : (s.releaseIfLeaving r).port = s.port := by
  unfold State.releaseIfLeaving; try dsimp only
  (repeat' split) <;> simp
@[simp] theorem State.releaseIfLeaving_image (s : State) (r : Region) : (s.releaseIfLeaving r).image = s.image := by
  unfold State.releaseIfLeaving; try dsimp only
  (repeat' split) <;> simp
@[simp] theorem State.releaseIfLeaving_pub (s : State) (r : Region) : (s.releaseIfLeaving r).pub = s.pub := by
  unfold State.releaseIfLeaving; try dsimp only
  (repeat' split) <;> simp
@[simp] theorem State.releaseIfLeaving_claims (s : State) (r : Region) : (s.releaseIfLeaving r).claims = s.claims := by
  unfold State.releaseIfLeaving; try dsimp only
  (repeat' split) <;> simp
@[simp] theorem State.releaseIfLeaving_roster (s : State) (r : Region) : (s.releaseIfLeaving r).roster = s.roster := by
  unfold State.releaseIfLeaving; try dsimp only
  (repeat' split) <;> simp
@[simp] theorem State.releaseIfLeaving_ctl (s : State) (r : Region) : (s.releaseIfLeaving r).ctl = s.ctl := by
  unfold State.releaseIfLeaving; try dsimp only
  (repeat' split) <;> simp
@[simp] theorem State.releaseIfLeaving_parked (s : State) (r : Region) : (s.releaseIfLeaving r).parked = s.parked := by
  unfold State.releaseIfLeaving; try dsimp only
  (repeat' split) <;> simp
@[simp] theorem State.releaseIfLeaving_cmd (s : State) (r : Region) : (s.releaseIfLeaving r).cmd = s.cmd := by
  unfold State.releaseIfLeaving; try dsimp only
  (repeat' split) <;> simp
@[simp] theorem State.releaseIfLeaving_pending (s : State) (r : Region) : (s.releaseIfLeaving r).pending = s.pending := by
  unfold State.releaseIfLeaving; try dsimp only
  (repeat' split) <;> simp
@[simp] theorem State.releaseIfLeaving_peer (s : State) (r : Region) (q : Station) : (s.releaseIfLeaving r).peer q = s.peer q := by
  unfold State.peer; rw [State.releaseIfLeaving_roster]
@[simp] theorem State.releaseIfLeaving_pubEntry (s : State) (r : Region) (q : Region) : (s.releaseIfLeaving r).pubEntry q = s.pubEntry q := by
  unfold State.pubEntry; rw [State.releaseIfLeaving_pub]
@[simp] theorem State.releaseIfLeaving_record (s : State) (r : Region) (q : Region) : (s.releaseIfLeaving r).record q = s.record q := by
  unfold State.record; rw [State.releaseIfLeaving_claims]
@[simp] theorem State.releaseIfLeaving_serving (s : State) (r : Region) (q : Region) : (s.releaseIfLeaving r).serving q = s.serving q := by
  unfold State.serving; rw [State.releaseIfLeaving_claims]
@[simp] theorem State.releaseIfLeaving_claimants (s : State) (r : Region) (q : Region) : (s.releaseIfLeaving r).claimants q = s.claimants q := by
  unfold State.claimants; rw [State.releaseIfLeaving_claims]

/-! `State.goOn` -/

@[simp] theorem State.goOn_port (s : State) (r : Region) : (s.goOn r).port = s.port := by simp [State.goOn]
@[simp] theorem State.goOn_image (s : State) (r : Region) : (s.goOn r).image = s.image := by simp [State.goOn]
@[simp] theorem State.goOn_pub (s : State) (r : Region) : (s.goOn r).pub = s.pub := by simp [State.goOn]
@[simp] theorem State.goOn_roster (s : State) (r : Region) : (s.goOn r).roster = s.roster := by simp [State.goOn]
@[simp] theorem State.goOn_ctl (s : State) (r : Region) : (s.goOn r).ctl = s.ctl := by simp [State.goOn]
@[simp] theorem State.goOn_parked (s : State) (r : Region) : (s.goOn r).parked = s.parked := by simp [State.goOn]
@[simp] theorem State.goOn_cmd (s : State) (r : Region) : (s.goOn r).cmd = s.cmd := by simp [State.goOn]
@[simp] theorem State.goOn_pending (s : State) (r : Region) : (s.goOn r).pending = s.pending := by simp [State.goOn]
@[simp] theorem State.goOn_peer (s : State) (r : Region) (q : Station) : (s.goOn r).peer q = s.peer q := by
  unfold State.peer; rw [State.goOn_roster]
@[simp] theorem State.goOn_pubEntry (s : State) (r : Region) (q : Region) : (s.goOn r).pubEntry q = s.pubEntry q := by
  unfold State.pubEntry; rw [State.goOn_pub]
@[simp] theorem State.goOn_record (s : State) (r : Region) (q : Region) : (s.goOn r).record q = s.record q := by simp [State.goOn]
@[simp] theorem State.goOn_claimants (s : State) (r : Region) (q : Region) : (s.goOn r).claimants q = s.claimants q := by simp [State.goOn]

/-! `State.queueLeave` -/

@[simp] theorem State.queueLeave_port (s : State) : (s.queueLeave).port = s.port := by simp [State.queueLeave]
@[simp] theorem State.queueLeave_image (s : State) : (s.queueLeave).image = s.image := by simp [State.queueLeave]
@[simp] theorem State.queueLeave_roster (s : State) : (s.queueLeave).roster = s.roster := by simp [State.queueLeave]
@[simp] theorem State.queueLeave_parked (s : State) : (s.queueLeave).parked = s.parked := by simp [State.queueLeave]
@[simp] theorem State.queueLeave_cmd (s : State) : (s.queueLeave).cmd = s.cmd := by simp [State.queueLeave]
@[simp] theorem State.queueLeave_pending (s : State) : (s.queueLeave).pending = s.pending := by simp [State.queueLeave]
@[simp] theorem State.queueLeave_peer (s : State) (q : Station) : (s.queueLeave).peer q = s.peer q := by
  unfold State.peer; rw [State.queueLeave_roster]
@[simp] theorem State.queueLeave_claimants (s : State) (q : Region) : s.queueLeave.claimants q = s.claimants q := by simp only [State.claimants, State.queueLeave]

/-! `State.leaveIfDone` -/

@[simp] theorem State.leaveIfDone_port (s : State) : (s.leaveIfDone).port = s.port := by
  unfold State.leaveIfDone; try dsimp only
  (repeat' split) <;> simp
@[simp] theorem State.leaveIfDone_image (s : State) : (s.leaveIfDone).image = s.image := by
  unfold State.leaveIfDone; try dsimp only
  (repeat' split) <;> simp
@[simp] theorem State.leaveIfDone_roster (s : State) : (s.leaveIfDone).roster = s.roster := by
  unfold State.leaveIfDone; try dsimp only
  (repeat' split) <;> simp
@[simp] theorem State.leaveIfDone_parked (s : State) : (s.leaveIfDone).parked = s.parked := by
  unfold State.leaveIfDone; try dsimp only
  (repeat' split) <;> simp
@[simp] theorem State.leaveIfDone_cmd (s : State) : (s.leaveIfDone).cmd = s.cmd := by
  unfold State.leaveIfDone; try dsimp only
  (repeat' split) <;> simp
@[simp] theorem State.leaveIfDone_pending (s : State) : (s.leaveIfDone).pending = s.pending := by
  unfold State.leaveIfDone; try dsimp only
  (repeat' split) <;> simp
@[simp] theorem State.leaveIfDone_peer (s : State) (q : Station) : (s.leaveIfDone).peer q = s.peer q := by
  unfold State.peer; rw [State.leaveIfDone_roster]
@[simp] theorem State.leaveIfDone_claimants (s : State) (q : Region) : (s.leaveIfDone).claimants q = s.claimants q := by
  unfold State.leaveIfDone; try dsimp only
  (repeat' split) <;> simp

/-! `State.giveUp` -/

@[simp] theorem State.giveUp_port (s : State) (d : LostDetail) (r : Region) : (s.giveUp d r).port = s.port := by
  unfold State.giveUp; try dsimp only
  (repeat' split) <;> simp
@[simp] theorem State.giveUp_image (s : State) (d : LostDetail) (r : Region) : (s.giveUp d r).image = s.image := by
  unfold State.giveUp; try dsimp only
  (repeat' split) <;> simp
@[simp] theorem State.giveUp_pub (s : State) (d : LostDetail) (r : Region) : (s.giveUp d r).pub = s.pub := by
  unfold State.giveUp; try dsimp only
  (repeat' split) <;> simp
@[simp] theorem State.giveUp_claims (s : State) (d : LostDetail) (r : Region) : (s.giveUp d r).claims = s.claims := by
  unfold State.giveUp; try dsimp only
  (repeat' split) <;> simp
@[simp] theorem State.giveUp_roster (s : State) (d : LostDetail) (r : Region) : (s.giveUp d r).roster = s.roster := by
  unfold State.giveUp; try dsimp only
  (repeat' split) <;> simp
@[simp] theorem State.giveUp_ctl (s : State) (d : LostDetail) (r : Region) : (s.giveUp d r).ctl = s.ctl := by
  unfold State.giveUp; try dsimp only
  (repeat' split) <;> simp
@[simp] theorem State.giveUp_parked (s : State) (d : LostDetail) (r : Region) : (s.giveUp d r).parked = s.parked := by
  unfold State.giveUp; try dsimp only
  (repeat' split) <;> simp
@[simp] theorem State.giveUp_line (s : State) (d : LostDetail) (r : Region) : (s.giveUp d r).line = s.line := by
  unfold State.giveUp; try dsimp only
  (repeat' split) <;> simp
@[simp] theorem State.giveUp_pending (s : State) (d : LostDetail) (r : Region) : (s.giveUp d r).pending = s.pending := by
  unfold State.giveUp; try dsimp only
  (repeat' split) <;> simp
@[simp] theorem State.giveUp_peer (s : State) (d : LostDetail) (r : Region) (q : Station) : (s.giveUp d r).peer q = s.peer q := by
  unfold State.peer; rw [State.giveUp_roster]
@[simp] theorem State.giveUp_pubEntry (s : State) (d : LostDetail) (r : Region) (q : Region) : (s.giveUp d r).pubEntry q = s.pubEntry q := by
  unfold State.pubEntry; rw [State.giveUp_pub]
@[simp] theorem State.giveUp_record (s : State) (d : LostDetail) (r : Region) (q : Region) : (s.giveUp d r).record q = s.record q := by
  unfold State.record; rw [State.giveUp_claims]
@[simp] theorem State.giveUp_serving (s : State) (d : LostDetail) (r : Region) (q : Region) : (s.giveUp d r).serving q = s.serving q := by
  unfold State.serving; rw [State.giveUp_claims]
@[simp] theorem State.giveUp_claimants (s : State) (d : LostDetail) (r : Region) (q : Region) : (s.giveUp d r).claimants q = s.claimants q := by
  unfold State.claimants; rw [State.giveUp_claims]

/-! `State.shutDown` -/

@[simp] theorem State.shutDown_port (s : State) : (s.shutDown).port = s.port := by simp [State.shutDown]
@[simp] theorem State.shutDown_image (s : State) : (s.shutDown).image = s.image := by simp [State.shutDown]
@[simp] theorem State.shutDown_parked (s : State) : (s.shutDown).parked = s.parked := by simp [State.shutDown]
@[simp] theorem State.shutDown_cmd (s : State) : (s.shutDown).cmd = s.cmd := by simp [State.shutDown]
@[simp] theorem State.shutDown_pending (s : State) : (s.shutDown).pending = s.pending := by simp [State.shutDown]

/-! `State.winConflict` -/

@[simp] theorem State.winConflict_port (s : State) (r : Region) (p : Station) : (s.winConflict r p).port = s.port := by simp [State.winConflict]
@[simp] theorem State.winConflict_image (s : State) (r : Region) (p : Station) : (s.winConflict r p).image = s.image := by simp [State.winConflict]
@[simp] theorem State.winConflict_dir (s : State) (r : Region) (p : Station) : (s.winConflict r p).dir = s.dir := by simp [State.winConflict]
@[simp] theorem State.winConflict_claims (s : State) (r : Region) (p : Station) : (s.winConflict r p).claims = s.claims := by simp [State.winConflict]
@[simp] theorem State.winConflict_roster (s : State) (r : Region) (p : Station) : (s.winConflict r p).roster = s.roster := by simp [State.winConflict]
@[simp] theorem State.winConflict_ctl (s : State) (r : Region) (p : Station) : (s.winConflict r p).ctl = s.ctl := by simp [State.winConflict]
@[simp] theorem State.winConflict_parked (s : State) (r : Region) (p : Station) : (s.winConflict r p).parked = s.parked := by simp [State.winConflict]
@[simp] theorem State.winConflict_line (s : State) (r : Region) (p : Station) : (s.winConflict r p).line = s.line := by simp [State.winConflict]
@[simp] theorem State.winConflict_pending (s : State) (r : Region) (p : Station) : (s.winConflict r p).pending = s.pending := by simp [State.winConflict]
@[simp] theorem State.winConflict_entry (s : State) (r : Region) (p : Station) (q : Region) : (s.winConflict r p).entry q = s.entry q := by
  unfold State.entry; rw [State.winConflict_dir]
@[simp] theorem State.winConflict_peer (s : State) (r : Region) (p : Station) (q : Station) : (s.winConflict r p).peer q = s.peer q := by
  unfold State.peer; rw [State.winConflict_roster]
@[simp] theorem State.winConflict_record (s : State) (r : Region) (p : Station) (q : Region) : (s.winConflict r p).record q = s.record q := by
  unfold State.record; rw [State.winConflict_claims]
@[simp] theorem State.winConflict_serving (s : State) (r : Region) (p : Station) (q : Region) : (s.winConflict r p).serving q = s.serving q := by
  unfold State.serving; rw [State.winConflict_claims]
@[simp] theorem State.winConflict_claimants (s : State) (r : Region) (p : Station) (q : Region) : (s.winConflict r p).claimants q = s.claimants q := by
  unfold State.claimants; rw [State.winConflict_claims]

/-! `State.loseOwner` -/

@[simp] theorem State.loseOwner_port (s : State) (p : Station) (r : Region) : (s.loseOwner p r).port = s.port := by
  unfold State.loseOwner; try dsimp only
  (repeat' split) <;> simp
@[simp] theorem State.loseOwner_image (s : State) (p : Station) (r : Region) : (s.loseOwner p r).image = s.image := by
  unfold State.loseOwner; try dsimp only
  (repeat' split) <;> simp
@[simp] theorem State.loseOwner_pub (s : State) (p : Station) (r : Region) : (s.loseOwner p r).pub = s.pub := by
  unfold State.loseOwner; try dsimp only
  (repeat' split) <;> simp
@[simp] theorem State.loseOwner_roster (s : State) (p : Station) (r : Region) : (s.loseOwner p r).roster = s.roster := by
  unfold State.loseOwner; try dsimp only
  (repeat' split) <;> simp
@[simp] theorem State.loseOwner_ctl (s : State) (p : Station) (r : Region) : (s.loseOwner p r).ctl = s.ctl := by
  unfold State.loseOwner; try dsimp only
  (repeat' split) <;> simp
@[simp] theorem State.loseOwner_parked (s : State) (p : Station) (r : Region) : (s.loseOwner p r).parked = s.parked := by
  unfold State.loseOwner; try dsimp only
  (repeat' split) <;> simp
@[simp] theorem State.loseOwner_cmd (s : State) (p : Station) (r : Region) : (s.loseOwner p r).cmd = s.cmd := by
  unfold State.loseOwner; try dsimp only
  (repeat' split) <;> simp
@[simp] theorem State.loseOwner_pending (s : State) (p : Station) (r : Region) : (s.loseOwner p r).pending = s.pending := by
  unfold State.loseOwner; try dsimp only
  (repeat' split) <;> simp
@[simp] theorem State.loseOwner_peer (s : State) (p : Station) (r : Region) (q : Station) : (s.loseOwner p r).peer q = s.peer q := by
  unfold State.peer; rw [State.loseOwner_roster]
@[simp] theorem State.loseOwner_pubEntry (s : State) (p : Station) (r : Region) (q : Region) : (s.loseOwner p r).pubEntry q = s.pubEntry q := by
  unfold State.pubEntry; rw [State.loseOwner_pub]
@[simp] theorem State.loseOwner_serving (s : State) (p : Station) (r : Region) (q : Region) : (s.loseOwner p r).serving q = s.serving q := by
  unfold State.loseOwner; try dsimp only
  (repeat' split) <;> simp
@[simp] theorem State.loseOwner_claimants (s : State) (p : Station) (r : Region) (q : Region) : (s.loseOwner p r).claimants q = s.claimants q := by
  unfold State.loseOwner; try dsimp only
  (repeat' split) <;> simp

/-! `State.releaseDeferred` -/

@[simp] theorem State.releaseDeferred_port (s : State) (p : Station) (r : Region) : (s.releaseDeferred p r).port = s.port := by
  unfold State.releaseDeferred; try dsimp only
  (repeat' split) <;> simp
@[simp] theorem State.releaseDeferred_image (s : State) (p : Station) (r : Region) : (s.releaseDeferred p r).image = s.image := by
  unfold State.releaseDeferred; try dsimp only
  (repeat' split) <;> simp
@[simp] theorem State.releaseDeferred_dir (s : State) (p : Station) (r : Region) : (s.releaseDeferred p r).dir = s.dir := by
  unfold State.releaseDeferred; try dsimp only
  (repeat' split) <;> simp
@[simp] theorem State.releaseDeferred_pub (s : State) (p : Station) (r : Region) : (s.releaseDeferred p r).pub = s.pub := by
  unfold State.releaseDeferred; try dsimp only
  (repeat' split) <;> simp
@[simp] theorem State.releaseDeferred_roster (s : State) (p : Station) (r : Region) : (s.releaseDeferred p r).roster = s.roster := by
  unfold State.releaseDeferred; try dsimp only
  (repeat' split) <;> simp
@[simp] theorem State.releaseDeferred_ctl (s : State) (p : Station) (r : Region) : (s.releaseDeferred p r).ctl = s.ctl := by
  unfold State.releaseDeferred; try dsimp only
  (repeat' split) <;> simp
@[simp] theorem State.releaseDeferred_parked (s : State) (p : Station) (r : Region) : (s.releaseDeferred p r).parked = s.parked := by
  unfold State.releaseDeferred; try dsimp only
  (repeat' split) <;> simp
@[simp] theorem State.releaseDeferred_cmd (s : State) (p : Station) (r : Region) : (s.releaseDeferred p r).cmd = s.cmd := by
  unfold State.releaseDeferred; try dsimp only
  (repeat' split) <;> simp
@[simp] theorem State.releaseDeferred_pending (s : State) (p : Station) (r : Region) : (s.releaseDeferred p r).pending = s.pending := by
  unfold State.releaseDeferred; try dsimp only
  (repeat' split) <;> simp
@[simp] theorem State.releaseDeferred_entry (s : State) (p : Station) (r : Region) (q : Region) : (s.releaseDeferred p r).entry q = s.entry q := by
  unfold State.entry; rw [State.releaseDeferred_dir]
@[simp] theorem State.releaseDeferred_peer (s : State) (p : Station) (r : Region) (q : Station) : (s.releaseDeferred p r).peer q = s.peer q := by
  unfold State.peer; rw [State.releaseDeferred_roster]
@[simp] theorem State.releaseDeferred_pubEntry (s : State) (p : Station) (r : Region) (q : Region) : (s.releaseDeferred p r).pubEntry q = s.pubEntry q := by
  unfold State.pubEntry; rw [State.releaseDeferred_pub]
@[simp] theorem State.releaseDeferred_serving (s : State) (p : Station) (r : Region) (q : Region) : (s.releaseDeferred p r).serving q = s.serving q := by
  unfold State.releaseDeferred; try dsimp only
  (repeat' split) <;> simp
@[simp] theorem State.releaseDeferred_claimants (s : State) (p : Station) (r : Region) (q : Region) : (s.releaseDeferred p r).claimants q = s.claimants q := by
  unfold State.releaseDeferred; try dsimp only
  (repeat' split) <;> simp

end Sys2Proof.Machine
end

