-- ==== Sys2Proof/Laws/Ops.lean ====
section
/-! SUPPORT. What each shared operation does, said once, in the vocabulary of Sys2Proof/Safety.lean: the state it answers, where
nothing stands against it. -/

namespace Sys2Proof.Machine

open Sys2Proof.Safety

/-! ### States field by field -/

/-- Two states with equal fields are equal. -/
theorem State.eq_of {s t : State} (h1 : s.port = t.port) (h2 : s.image = t.image) (h3 : s.dir = t.dir) (h4 : s.pub = t.pub)
    (h5 : s.claims = t.claims) (h6 : s.roster = t.roster) (h7 : s.ctl = t.ctl) (h8 : s.parked = t.parked) (h9 : s.cmd = t.cmd)
    (h10 : s.line = t.line) (h11 : s.pending = t.pending) : s = t := by
  cases s; cases t; simp_all

/-- The directory after one entry is replaced. -/
theorem State.setEntry_dir (s : State) (r : Region) (e : DirEntry) : (s.setEntry r e).dir = put s.dir r e := rfl

/-- The Claim Engine after one record is replaced. -/
theorem State.setRecord_claims (s : State) (r : Region) (c : Option ClaimRecord) :
    (s.setRecord r c).claims = { s.claims with records := put s.claims.records r c } := rfl

/-- The Claim Engine after one serving entry is replaced. -/
theorem State.setServing_claims (s : State) (r : Region) (e : ServeEntry) :
    (s.setServing r e).claims = { s.claims with serve := put s.claims.serve r e } := rfl

/-! ### Notices -/

theorem noticed_nil (ticks : Half) (c : CommandUnit) : noticed [] ticks c = c := by
  simp [noticed, noticeRecords]

/-- Notices of one act placed one after another are placed together. -/
theorem noticed_append (xs ys : List Notice) (ticks : Half) (c : CommandUnit) :
    noticed ys ticks (noticed xs ticks c) = noticed (xs ++ ys) ticks c := by
  have hn : ∀ (l : List Notice) (k : Half), (noticeRecords ticks k l).length = l.length := by simp [noticeRecords]
  have hs : noticeRecords ticks (c.number + BitVec.ofNat 16 xs.length) ys =
      ys.mapIdx (fun i n => { notice := n, stamp := ticks, number := c.number + BitVec.ofNat 16 (i + xs.length) }) := by
    simp only [noticeRecords, Nat.add_comm _ xs.length, BitVec.ofNat_add, BitVec.add_assoc]
  unfold noticed
  simp only [List.length_append, List.length_take, hn, hs]
  congr 1
  · simp only [noticeRecords, List.mapIdx_append, List.take_append, List.length_mapIdx, List.append_assoc]
    congr 2
    rcases Nat.le_total xs.length (32 - c.notices.length) with h | h
    · rw [Nat.min_eq_right h]; congr 1; omega
    · rw [Nat.min_eq_left h]
      have e1 : 32 - (c.notices.length + (32 - c.notices.length)) = 0 := by omega
      have e2 : 32 - c.notices.length - xs.length = 0 := by omega
      rw [e1, e2]
  · rcases Nat.le_total xs.length (32 - c.notices.length) with h | h
    · rw [Nat.min_eq_right h]; split_ifs <;> omega
    · rw [Nat.min_eq_left h]; split_ifs <;> omega
  · rw [BitVec.ofNat_add, BitVec.add_assoc]
  · rw [Bool.or_assoc]; congr 1
    rw [← Bool.decide_or]; congr 1
    rcases Nat.le_total xs.length (32 - c.notices.length) with h | h
    · rw [Nat.min_eq_right h]; apply propext; omega
    · rw [Nat.min_eq_left h]; apply propext; omega

/-- A block places a notice. -/
theorem State.notify_eq (n : Notice) (s : State) : s.notify n = { s with cmd := noticed [n] s.ctl.ticks s.cmd } := by
  unfold State.notify noticed noticeRecords
  by_cases h : s.cmd.notices.length < Config.maxNotices
  · have h' : s.cmd.notices.length < 32 := h
    have h1 : 1 ≤ 32 - s.cmd.notices.length := by omega
    simp [h, List.take_of_length_le, h1, Nat.not_lt.2 h1]
  · have h' : ¬s.cmd.notices.length < 32 := h
    have h0 : 32 - s.cmd.notices.length = 0 := by omega
    simp [h, h0, satSucc_eq]

/-- A transition other than the entry to RESET. -/
theorem State.transition_eq (m : Mode) (c : Cause) (s : State) :
    s.transition m c = { s with ctl := { s.ctl with mode := m, cause := c }, cmd := transited m c s.ctl.ticks s.cmd } := by
  unfold State.transition
  rw [State.notify_eq]
  rfl

/-! ### The Line Unit -/

/-- A frame is handed to the Line Unit. -/
theorem State.hand_eq (m : Mark) (s : State) (h : s.ctl.leaveQueued = false) : s.hand m = { s with line := handLine m s.line } := by
  unfold State.hand handLine LineUnit.room LineUnit.append
  by_cases hq : s.line.queue.length < 16 <;> simp [h, hq, Config.maxQueue]

/-- After the LEAVE frame is queued a frame is discarded. -/
theorem State.hand_leaving (m : Mark) (s : State) (h : s.ctl.leaveQueued = true) : s.hand m = s := by simp [State.hand, h]

/-- An answer is handed to the Line Unit. -/
theorem State.answer_eq (q : QFrame) (s : State) (h : s.ctl.leaveQueued = false) :
    s.answer q = { s with line := answerLine q s.line } := by
  unfold State.answer answerLine LineUnit.room LineUnit.append
  by_cases hq : s.line.queue.length < 16 <;> simp [h, hq, Config.maxQueue, satSucc_eq]

/-- After the LEAVE frame is queued an answer is discarded. -/
theorem State.answer_leaving (q : QFrame) (s : State) (h : s.ctl.leaveQueued = true) : s.answer q = s := by
  simp [State.answer, h]

/-- Several claimants draw a REFUSE. -/
theorem State.refuseAll_eq (r : Region) (why : RefuseReason) (b : Option Station) (ps : List Station) (s : State)
    (h : s.ctl.leaveQueued = false) : s.refuseAll r why b ps = { s with line := refuseLine r why b ps s.line } := by
  unfold State.refuseAll refuseLine
  induction ps generalizing s with
  | nil => rfl
  | cons p ps ih => simp only [List.foldl_cons]; rw [State.answer_eq _ s h]; exact ih _ h

theorem State.refuseAll_leaving (r : Region) (why : RefuseReason) (b : Option Station) (ps : List Station) (s : State)
    (h : s.ctl.leaveQueued = true) : s.refuseAll r why b ps = s := by
  unfold State.refuseAll
  induction ps with
  | nil => rfl
  | cons p ps ih => simp only [List.foldl_cons]; rw [State.answer_leaving _ s h, ih]

/-- Frames of the Line Unit no longer stand. -/
theorem LineUnit.fell_eq (p : QFrame → Bool) (l : LineUnit) : l.fell p = fellLine p l := by
  unfold LineUnit.fell fellLine
  congr 1
  · apply List.map_congr_left
    intro e _
    cases h : p e.frame <;> cases e <;> simp_all
  · cases hf : l.flight with
    | none => rfl
    | some f =>
      simp only [Option.map_some]
      cases hj : f.job with
      | control q => cases h : p q <;> cases f <;> simp_all
      | presence => simp [← hj]
      | update r => simp [← hj]

/-- The frames of a record end with it. -/
theorem State.endRecordFrames_eq (r : Region) (s : State) : s.endRecordFrames r = { s with line := endedLine r s.line } := by
  unfold State.endRecordFrames State.fell State.clearMarks endedLine
  rw [LineUnit.fell_eq]
  rfl

/-- A record needs a CLAIM. -/
theorem State.needClaim_eq (r : Region) (s : State) (h : s.ctl.leaveQueued = false) :
    s.needClaim r = { s with line := claimLine r s } := by
  unfold State.needClaim claimLine
  split
  · rfl
  · exact State.hand_eq _ _ h

@[simp] theorem State.setRecord_claimPending (s : State) (r q : Region) (c : Option ClaimRecord) :
    (s.setRecord r c).claimPending q = s.claimPending q := rfl

/-- After the frames of a record have ended, no CLAIM of it is pending. -/
theorem claimPending_endedLine (r : Region) (s t : State) (h : t.line = endedLine r s.line) : t.claimPending r = false := by
  unfold State.claimPending
  rw [h]
  simp only [endedLine, fellLine, Bool.or_eq_false_iff]
  refine ⟨⟨?_, ?_⟩, ?_⟩
  · rw [List.any_eq_false]
    intro e he
    obtain ⟨e', -, rfl⟩ := List.mem_map.1 he
    simp only [Bool.and_eq_true, beq_iff_eq, Bool.not_eq_true', Bool.or_eq_false_iff, beq_eq_false_iff_ne, ne_eq]
    exact fun h => h.2.2 h.1
  · simp [List.contains_eq_mem, Mark.ofRecord]
  · cases hf : s.line.flight with
    | none => rfl
    | some f =>
      simp only [Option.map_some]
      cases hj : f.job with
      | control q => by_cases hq : q = .claim r <;> simp [hq]
      | presence => simp
      | update q => simp

/-- A claim request that is taken. -/
theorem State.requestClaim_eq (r : Region) (o : Origin) (s : State) (h : s.ctl.leaveQueued = false) :
    s.requestClaim r o = claimed r o s := by
  unfold State.requestClaim State.freeRecord
  rw [State.endRecordFrames_eq, State.needClaim_eq _ _ (by simpa using h)]
  have hp := claimPending_endedLine r s
    ((({ s with line := endedLine r s.line } : State).setRecord r none).setRecord r
      (some (newRecord o (if (s.entry r).role == .orphan then .orphan else .normal)))) rfl
  unfold claimLine
  simp only [hp, Bool.false_eq_true, if_false]
  refine State.eq_of rfl rfl rfl rfl ?_ rfl rfl rfl rfl rfl rfl
  simp only [State.setRecord_claims, claimed]
  congr 1
  refine pick_ext fun q => ?_
  by_cases hq : q = r
  · subst hq; by_cases ho : (s.entry q).role = .orphan <;> simp [newRecord, freshRecord, ho]
  · simp [pick_put_other _ _ hq]

/-! ### The failure of a claim -/

theorem endedLine_length (r : Region) (l : LineUnit) : (endedLine r l).queue.length = l.queue.length := by
  simp [endedLine, fellLine]

/-- A live record is the region's record. -/
theorem State.record_of_live {s : State} {r : Region} {c : ClaimRecord} (h : s.liveRecord r = some c) : s.record r = some c := by
  unfold State.liveRecord at h
  split at h
  · cases h
  · exact h

/-- The failure of a live record, before its frame: the record's frames end, the notices are placed, the parked writes are gone. -/
def failing (r : Region) (why : FailReason) (s : State) : State :=
  { s with line := endedLine r s.line, cmd := noticed (failNotices r why s) s.ctl.ticks s.cmd
           parked := s.parked.filter fun w => w.region != r }

theorem State.failRecord_eq (r : Region) (why : FailReason) (c : ClaimRecord) (s : State) (h : s.liveRecord r = some c) :
    s.failRecord r why =
      if (c.state = .asked ∨ c.state = .queued) ∧ (why = .noAnswer ∨ why = .patience ∨ why = .withdrawn ∨ why = .leave) ∧
          (failing r why s).ctl.leaveQueued = false ∧ (failing r why s).line.room = false then
        ((failing r why s).setRecord r (some { c with answer := .stopped, patience := .stopped, orphanWait := .stopped })).hand
          (.withdraw r (why == .leave))
      else if (c.state = .asked ∨ c.state = .queued) ∧
          (why = .noAnswer ∨ why = .patience ∨ why = .withdrawn ∨ why = .leave) then
        ((failing r why s).setRecord r none).hand (.withdraw r (why == .leave))
      else (failing r why s).setRecord r none := by
  set u : State := failing r why s with hudef
  have hu : (let s1 := s.endRecordFrames r
      let s2 := s1.notify (.claimFailed r (s1.entry r).owner why c.origin)
      let lost := (s2.parkedFor r).length
      let s3 := s2.dropParked r
      if lost = 0 then s3 else s3.notify (.writesLost r why lost)) = u := by
    simp only [State.endRecordFrames_eq, State.notify_eq, State.dropParked, hudef, failing, failNotices, h]
    have hp : ∀ (x : CommandUnit) (l : LineUnit), ({ s with cmd := x, line := l } : State).parkedFor r = s.parkedFor r :=
      fun _ _ => rfl
    simp only [hp]
    by_cases hl : s.parkedFor r = []
    · simp only [hl, List.length_nil, if_true]; rfl
    · have hl' : (s.parkedFor r).length ≠ 0 := by simpa using hl
      simp only [hl, hl', if_false, noticed_append]
      rfl
  simp only [State.failRecord, h]
  rw [← hu]

/-- A failure that hands no WITHDRAW over frees the record. -/
theorem State.failRecord_noFrame (r : Region) (why : FailReason) (c : ClaimRecord) (s : State) (h : s.liveRecord r = some c)
    (hw : ¬Withdraws why c) : s.failRecord r why = (failing r why s).setRecord r none := by
  have hW : ¬((c.state = .asked ∨ c.state = .queued) ∧
      (why = .noAnswer ∨ why = .patience ∨ why = .withdrawn ∨ why = .leave)) := hw
  rw [State.failRecord_eq r why c s h, if_neg (fun x => hW ⟨x.1, x.2.1⟩), if_neg hW]

/-- A live record fails with no WITHDRAW to send, before or after the LEAVE frame is queued. -/
theorem State.failRecord_freed (r : Region) (why : FailReason) (c : ClaimRecord) (s : State) (h : s.liveRecord r = some c)
    (hw : ¬Withdraws why c) : Failed r why c s (s.failRecord r why) := by
  rw [State.failRecord_eq r why c s h, if_neg (fun x => hw ⟨x.1, x.2.1⟩)]
  unfold Withdraws at hw
  rw [if_neg hw]
  refine ⟨rfl, rfl, fun _ => ⟨?_, rfl⟩, fun hn => absurd hn hw, fun hn => absurd hn hw, ?_, rfl⟩
  · simp [State.record, State.setRecord]
  · intro q hne
    show pick (put s.claims.records r none) q = pick s.claims.records q
    exact pick_put_other _ _ hne

/-- A live record of the region fails. -/
theorem State.failRecord_failed (r : Region) (why : FailReason) (c : ClaimRecord) (s : State) (h : s.liveRecord r = some c)
    (hq : s.ctl.leaveQueued = false) : Failed r why c s (s.failRecord r why) := by
  have key := State.failRecord_eq r why c s h
  set u : State := failing r why s with hudef
  have hlen : u.line.queue.length = s.line.queue.length := endedLine_length r s.line
  have hroom : u.line.room = decide (s.line.queue.length < 16) := by
    unfold LineUnit.room; rw [hlen]; rfl
  have hset : ∀ x : Option ClaimRecord, ((u.setRecord r x).hand (.withdraw r (why == .leave))) =
      { u with claims := { s.claims with records := put s.claims.records r x }
               line := handLine (.withdraw r (why == .leave)) (endedLine r s.line) } := by
    intro x; rw [State.hand_eq _ _ (by exact hq)]; rfl
  rw [key]
  have hW : Withdraws why c ↔ (c.state = .asked ∨ c.state = .queued) ∧
      (why = .noAnswer ∨ why = .patience ∨ why = .withdrawn ∨ why = .leave) := Iff.rfl
  by_cases hw : Withdraws why c
  · have hw' := hW.1 hw
    by_cases hl : s.line.queue.length < 16
    · rw [if_neg (by rw [hroom]; simp [hl]), if_pos hw', hset]
      refine ⟨rfl, rfl, fun hn => absurd hw hn, fun _ _ => ⟨?_, rfl⟩, fun _ h16 => absurd hl (Nat.not_lt.2 h16), ?_, rfl⟩
      · simp [State.record]
      · intro q hne; simp [State.record, pick_put_other _ _ hne]
    · rw [if_pos ⟨hw'.1, hw'.2, hq, by rw [hroom]; simp [hl]⟩, hset]
      have hl' : ¬(endedLine r s.line).queue.length < 16 := by rw [endedLine_length]; exact hl
      refine ⟨rfl, rfl, fun hn => absurd hw hn, fun _ h16 => absurd h16 hl, fun _ _ => ⟨?_, ?_, rfl⟩, ?_, rfl⟩
      · simp [State.record]
      · unfold State.closing
        simp [State.record, handLine, hl', Mark.isWithdraw]
      · intro q hne; simp [State.record, pick_put_other _ _ hne]
  · rw [← key]
    exact State.failRecord_freed r why c s h hw

/-- Without a live record nothing fails. -/
theorem State.failRecord_none (r : Region) (why : FailReason) (s : State) (h : s.liveRecord r = none) : s.failRecord r why = s := by
  simp [State.failRecord, h]

/-! ### The publish set -/

/-- A span addition at an OWNER region (R23). -/
theorem State.addSpan_eq (r : Region) (a b : Offset) (s : State) (h : (s.entry r).role = .owner)
    (hq : s.pub.barred = false) :
    s.addSpan r a b = { s with pub := { s.pub with set := put s.pub.set r (spanAddition a b (s.pubEntry r)) } } := by
  unfold State.addSpan
  simp only [State.additionMade, h, hq, State.setPub]
  cases s.pubEntry r <;> simp [spanAddition]

/-- A full addition, which is made at an OWNER region alone (R23). -/
theorem State.addFull_eq (r : Region) (s : State) (hq : s.pub.barred = false) :
    s.addFull r = { s with pub := fullyAdded r s } := by
  unfold State.addFull fullyAdded
  by_cases h : (s.entry r).role = .owner
  · simp only [State.additionMade, h, hq, State.setPub]
    cases s.pubEntry r <;> simp [fullAddition]
  · simp [State.additionMade, h]

/-- After the LEAVE frame is queued no addition is made (R37). -/
theorem State.addFull_barred (r : Region) (s : State) (hq : s.pub.barred = true) : s.addFull r = s := by
  simp [State.addFull, State.additionMade, hq]

/-! ### The lanes of a host word -/

theorem laneByte_or (x y : HostWord) (k : Nat) : laneByte (x ||| y) k = laneByte x k ||| laneByte y k := by
  simp [laneByte, BitVec.extractLsb'_or]

theorem laneByte_zero (k : Nat) : laneByte 0 k = 0 := by simp [laneByte]

/-- One byte placed in one lane. -/
theorem laneByte_shift (b : Byte) (j k : Nat) (hk : k < 4) (hj : j < 4) :
    laneByte (b.setWidth 32 <<< (8 * j)) k = if j = k then b else 0 := by
  apply BitVec.eq_of_getLsbD_eq
  intro i hi
  split
  · next h =>
    subst h
    have h2 : 8 * j + i < 32 := by omega
    have h3 : 8 * j + i - 8 * j = i := by omega
    simp [laneByte, hi, h2, h3]
  · next h =>
    by_cases h2 : 8 * k + i < 8 * j
    · simp [laneByte, hi, h2]
    · have : 8 ≤ 8 * k + i - 8 * j := by omega
      simp [laneByte, hi, h2]
      intros; exact BitVec.getLsbD_of_ge _ _ this

/-- A read returns the bytes of its group of lanes, and 0 on the lanes outside it (R126). -/
theorem laneByte_gatherLanes (first len : Nat) (f : Nat → Byte) (k : Fin 4) :
    laneByte (gatherLanes first len f) k = if first ≤ k.val ∧ k.val < first + len then f k.val else 0 := by
  have step : ∀ (w : HostWord) (j : Nat), j < 4 →
      laneByte (if first ≤ j ∧ j < first + len then w ||| ((f j).setWidth 32 <<< (8 * j)) else w) k.val =
        laneByte w k.val ||| (if first ≤ j ∧ j < first + len then (if j = k.val then f j else 0) else 0) := by
    intro w j hj
    split
    · rw [laneByte_or, laneByte_shift _ _ _ k.isLt hj]
    · simp
  simp only [gatherLanes, List.foldl_cons, List.foldl_nil]
  rw [step _ 3 (by omega), step _ 2 (by omega), step _ 1 (by omega), step _ 0 (by omega), laneByte_zero]
  match k with
  | 0 => simp
  | 1 => simp
  | 2 => simp
  | 3 => simp

end Sys2Proof.Machine
end

