-- ==== Sys2Proof/Laws/Down.lean ====
section
/-! SUPPORT. The entry to ISOLATED or OFFLINE, said once: `State.goDown_down`. -/

namespace Sys2Proof.Machine

open Sys2Proof.Safety

/-- After the giving up of some regions, in order. -/
structure GaveUp (d : LostDetail) (l : List Region) (s t : State) : Prop where
  cmd : t.cmd = noticed ((l.filter fun r => (s.entry r).role.owns).map fun r => .regionLost r none d) s.ctl.ticks s.cmd
  inside : ∀ r, r ∈ l → (s.entry r).role.owns = true →
    t.entry r = { s.entry r with owner := none, role := .orphan, held := false, tenure := .stopped, release := .idle }
  outside : ∀ r, r ∉ l ∨ (s.entry r).role.owns = false → t.entry r = s.entry r
  frame : { t with cmd := s.cmd, dir := s.dir } = s

/-- The parts of the state that the giving up keeps. -/
theorem GaveUp.fields {d : LostDetail} {l : List Region} {s t : State} (h : GaveUp d l s t) :
    t.port = s.port ∧ t.image = s.image ∧ t.pub = s.pub ∧ t.claims = s.claims ∧ t.roster = s.roster ∧ t.ctl = s.ctl ∧ t.parked = s.parked ∧ t.line = s.line ∧ t.pending = s.pending := by
  have f := h.frame
  refine ⟨?_, ?_, ?_, ?_, ?_, ?_, ?_, ?_, ?_⟩
  · have g := congrArg State.port f; exact g
  · have g := congrArg State.image f; exact g
  · have g := congrArg State.pub f; exact g
  · have g := congrArg State.claims f; exact g
  · have g := congrArg State.roster f; exact g
  · have g := congrArg State.ctl f; exact g
  · have g := congrArg State.parked f; exact g
  · have g := congrArg State.line f; exact g
  · have g := congrArg State.pending f; exact g

theorem giveUp_fold (d : LostDetail) (l : List Region) (hn : l.Nodup) (s : State) :
    GaveUp d l s (l.foldl (fun s r => s.giveUp d r) s) := by
  induction l generalizing s with
  | nil => exact ⟨by simp [noticed_nil], by simp, fun _ _ => rfl, rfl⟩
  | cons a l ih =>
    obtain ⟨ha, hn⟩ := List.nodup_cons.1 hn
    rw [List.foldl_cons]
    cases ho : (s.entry a).role.owns with
    | false =>
      have e : s.giveUp d a = s := by simp [State.giveUp, ho]
      rw [e]
      have g := ih hn s
      refine ⟨?_, ?_, ?_, g.frame⟩
      · rw [g.cmd]; simp [ho]
      · intro r hr h
        rcases List.mem_cons.1 hr with rfl | hr
        · rw [ho] at h; cases h
        · exact g.inside r hr h
      · intro r h
        by_cases hr : r = a
        · exact g.outside r (.inl (hr ▸ ha))
        · exact g.outside r (h.imp_left fun h1 h2 => h1 (List.mem_cons_of_mem _ h2))
    | true =>
      let u : State := { s with
        dir := put s.dir a { s.entry a with owner := none, role := .orphan, held := false, tenure := .stopped, release := .idle }
        cmd := noticed [.regionLost a none d] s.ctl.ticks s.cmd }
      have e : s.giveUp d a = u := by simp only [State.giveUp, ho, if_true, State.notify_eq]; rfl
      rw [e]
      have g := ih hn u
      have hent : ∀ r, u.entry r = if r = a then
          { s.entry a with owner := none, role := .orphan, held := false, tenure := .stopped, release := .idle }
          else s.entry r := fun r => pick_put _ _ _ _
      have howns : ∀ r, r ≠ a → (u.entry r).role.owns = (s.entry r).role.owns := fun r hr => by rw [hent, if_neg hr]
      refine ⟨?_, ?_, ?_, ?_⟩
      · rw [g.cmd]
        have hf : (l.filter fun r => (u.entry r).role.owns) = l.filter fun r => (s.entry r).role.owns :=
          List.filter_congr fun r hr => howns r (fun h => ha (h ▸ hr))
        rw [hf]
        show noticed _ s.ctl.ticks (noticed _ s.ctl.ticks s.cmd) = _
        rw [noticed_append]
        simp [ho]
      · intro r hr h
        by_cases hra : r = a
        · subst hra; rw [g.outside r (.inl ha), hent, if_pos rfl]
        · have hr' := (List.mem_cons.1 hr).resolve_left hra
          rw [g.inside r hr' (by rw [howns r hra]; exact h), hent, if_neg hra]
      · intro r h
        by_cases hra : r = a
        · subst hra
          rcases h with h | h
          · exact absurd List.mem_cons_self h
          · rw [ho] at h; cases h
        · rw [g.outside r, hent, if_neg hra]
          exact h.imp (fun h1 h2 => h1 (List.mem_cons_of_mem _ h2)) fun h1 => by rw [howns r hra]; exact h1
      · exact congrArg (fun x : State => { x with cmd := s.cmd, dir := s.dir }) g.frame

/-- After the failing of the records of some regions with reason ISOLATED, in order. -/
structure AllFailed (l : List Region) (s t : State) : Prop where
  cmd : t.cmd = noticed (l.flatMap fun r => failNotices r .isolated s) s.ctl.ticks s.cmd
  parked : t.parked = s.parked.filter fun w => !(decide (w.region ∈ l) && (s.liveRecord w.region).isSome)
  line : { t.line with queue := [], marks := [], flight := none } = { s.line with queue := [], marks := [], flight := none }
  claims : { t.claims with records := s.claims.records } = s.claims
  frame : { t with cmd := s.cmd, parked := s.parked, line := s.line, claims := s.claims } = s

/-- The parts of the state that the failing keeps. -/
theorem AllFailed.fields {l : List Region} {s t : State} (h : AllFailed l s t) :
    t.port = s.port ∧ t.image = s.image ∧ t.dir = s.dir ∧ t.pub = s.pub ∧ t.roster = s.roster ∧ t.ctl = s.ctl ∧ t.pending = s.pending := by
  have f := h.frame
  refine ⟨?_, ?_, ?_, ?_, ?_, ?_, ?_⟩
  · have g := congrArg State.port f; exact g
  · have g := congrArg State.image f; exact g
  · have g := congrArg State.dir f; exact g
  · have g := congrArg State.pub f; exact g
  · have g := congrArg State.roster f; exact g
  · have g := congrArg State.ctl f; exact g
  · have g := congrArg State.pending f; exact g

/-- The end of a record's frames keeps the closing mark of every other record. -/
theorem isWithdraw_endedLine (r q : Region) (h : q ≠ r) (l : LineUnit) :
    (endedLine r l).marks.any (Mark.isWithdraw q) = l.marks.any (Mark.isWithdraw q) := by
  rw [Bool.eq_iff_iff]
  simp only [endedLine, List.any_eq_true, List.mem_filter, Bool.not_eq_true']
  constructor
  · rintro ⟨m, ⟨h1, -⟩, h2⟩; exact ⟨m, h1, h2⟩
  · rintro ⟨m, h1, h2⟩
    refine ⟨m, ⟨h1, ?_⟩, h2⟩
    cases m <;> simp_all [Mark.isWithdraw, Mark.ofRecord]

theorem failRecord_fold (l : List Region) (hn : l.Nodup) (s : State) :
    AllFailed l s (l.foldl (fun s r => s.failRecord r .isolated) s) := by
  induction l generalizing s with
  | nil => exact ⟨by simp [noticed_nil], by simp, rfl, rfl, rfl⟩
  | cons a l ih =>
    obtain ⟨ha, hn⟩ := List.nodup_cons.1 hn
    rw [List.foldl_cons]
    cases hc : s.liveRecord a with
    | none =>
      rw [State.failRecord_none _ _ _ hc]
      have g := ih hn s
      refine ⟨?_, ?_, g.line, g.claims, g.frame⟩
      · rw [g.cmd]; simp [failNotices, hc]
      · rw [g.parked]; apply List.filter_congr; intro w _
        by_cases hw : w.region = a <;> simp [hw, hc]
    | some c =>
      have hw : ¬Withdraws .isolated c := by rintro ⟨-, h⟩; simp at h
      rw [State.failRecord_noFrame a .isolated c s hc hw]
      generalize hu : (failing a .isolated s).setRecord a none = u
      have hlive : ∀ q, q ≠ a → u.liveRecord q = s.liveRecord q := by
        intro q hq
        subst hu
        unfold State.liveRecord State.closing
        rw [State.setRecord_record, if_neg hq]
        show (if (_ && (endedLine a s.line).marks.any _) = true then none else _) = _
        rw [isWithdraw_endedLine a q hq]; rfl
      have hpk : ∀ q, q ≠ a → u.parkedFor q = s.parkedFor q := by
        intro q hq
        subst hu
        show (s.parked.filter fun w => w.region != a).filter _ = s.parked.filter _
        rw [List.filter_filter]
        apply List.filter_congr; intro w _
        by_cases h : w.region = q <;> simp [h, hq]
      have hent : ∀ q, u.entry q = s.entry q := fun q => by subst hu; rfl
      have hnot : ∀ q, q ∈ l → failNotices q .isolated u = failNotices q .isolated s := by
        intro q hq
        have hne : q ≠ a := fun h => ha (h ▸ hq)
        unfold failNotices; rw [hlive q hne, hpk q hne, hent]
      have g := ih hn u
      refine ⟨?_, ?_, ?_, ?_, ?_⟩
      · rw [g.cmd]
        have hcm : u.cmd = noticed (failNotices a .isolated s) s.ctl.ticks s.cmd := by subst hu; rfl
        have hct : u.ctl.ticks = s.ctl.ticks := by subst hu; rfl
        rw [hcm, hct, noticed_append, List.flatMap_cons]
        congr 2
        exact List.flatMap_congr hnot
      · have hup : u.parked = s.parked.filter fun w => w.region != a := by subst hu; rfl
        rw [g.parked, hup, List.filter_filter]
        apply List.filter_congr; intro w _
        by_cases h : w.region = a
        · simp [h, hc]
        · simp [h, hlive _ h]
      · refine g.line.trans ?_
        subst hu; rfl
      · subst hu
        exact congrArg (fun x : ClaimEngine => { x with records := s.claims.records }) g.claims
      · subst hu
        exact congrArg (fun x : State => { x with cmd := s.cmd, parked := s.parked, line := s.line, claims := s.claims }) g.frame

/-- The station enters ISOLATED or OFFLINE. -/
theorem State.goDown_down (m : Mode) (why : Cause) (d : LostDetail) (s : State) :
    WentDown m why d s (s.goDown m why d) := by
  let a : State := { s with ctl := { s.ctl with mode := m, cause := why }, cmd := transited m why s.ctl.ticks s.cmd }
  have nd : allRegions.Nodup := List.nodup_finRange 128
  have hb : GaveUp d allRegions a (a.forRegions (State.giveUp d)) := giveUp_fold d allRegions nd a
  have e : s.goDown m why d = ((a.forRegions (State.giveUp d)).forRegions fun r s => s.failRecord r .isolated).shutDown := by
    unfold State.goDown; rw [State.transition_eq]
  generalize a.forRegions (State.giveUp d) = b at hb e
  have hc : AllFailed allRegions b (b.forRegions fun r s => s.failRecord r .isolated) := failRecord_fold allRegions nd b
  generalize (b.forRegions fun r s => s.failRecord r .isolated) = c at hc e
  rw [e]
  obtain ⟨bport, bimage, bpub, bclaims, broster, bctl, bparked, bline, bpending⟩ := hb.fields
  obtain ⟨cport, cimage, cdir, cpub, croster, cctl, cpending⟩ := hc.fields
  rw [bctl] at cctl
  have blive : ∀ q, b.liveRecord q = s.liveRecord q := fun q => by
    unfold State.liveRecord State.closing State.record; rw [bline, bclaims]
  have cent : ∀ r, c.entry r = b.entry r := fun r => by unfold State.entry; rw [cdir]
  have bnone : ∀ r, failNotices r .isolated b = failNotices r .isolated
      { s with dir := s.dir.map fun e => if e.role.owns then { e with owner := none } else e } := by
    intro r
    have ho : (b.entry r).owner = (pick (s.dir.map fun (e : DirEntry) => if e.role.owns then { e with owner := none } else e) r).owner := by
      rw [pick_map, show pick s.dir r = s.entry r from rfl]
      by_cases h : (s.entry r).role.owns = true
      · rw [hb.inside r (mem_allRegions r) h, if_pos h]
      · have h' : (s.entry r).role.owns = false := by simpa using h
        rw [hb.outside r (.inr h'), if_neg h]; rfl
    have hp : b.parkedFor r = s.parkedFor r := by unfold State.parkedFor; rw [bparked]
    unfold failNotices
    rw [blive, ho, hp]; rfl
  refine ⟨?_, ?_, ?_, ?_, ?_, ?_, ?_, ?_, ?_, ?_⟩
  · show ({ c.ctl with listen := _, leave := _, presence := _, presenceDue := _, backlog := _, leaveQueued := _ } : Controller) = _
    rw [cctl]
  · show c.cmd = _
    have bct : b.ctl.ticks = s.ctl.ticks := by rw [bctl]
    have bcm := hb.cmd
    rw [hc.cmd, bct, bcm]
    show noticed _ s.ctl.ticks (noticed _ s.ctl.ticks { noticed [.state m why] s.ctl.ticks s.cmd with stateChange := true }) = _
    rw [noticed_append]
    have h3 : ∀ ns tk (x : CommandUnit), noticed ns tk { x with stateChange := true } = { noticed ns tk x with stateChange := true } :=
      fun _ _ _ => rfl
    rw [h3, noticed_append]
    unfold downNotices
    rw [List.flatMap_congr fun r _ => bnone r]
    rfl
  · intro r h
    show pick (c.dir.map _) r = _
    rw [pick_map, cdir]
    have := hb.inside r (mem_allRegions r) h
    rw [show pick b.dir r = b.entry r from rfl, this]; rfl
  · intro r h
    show pick (c.dir.map _) r = _
    rw [pick_map, cdir]
    have := hb.outside r (.inr h)
    rw [show pick b.dir r = b.entry r from rfl, this]; rfl
  · refine ⟨fun r => pick_replicate _ _, ?_, rfl, rfl, ?_⟩
    · show c.pub.pointer = _
      rw [cpub, bpub]
    · show c.pub.barred = _
      rw [cpub, bpub]
  · exact ⟨fun r => ⟨pick_replicate _ _, pick_replicate _ _⟩, rfl⟩
  · intro p
    show pick (c.roster.map _) p = _
    rw [pick_map, croster, broster]; rfl
  · show c.parked = _
    rw [hc.parked, bparked]
    apply List.filter_congr; intro w _
    rw [blive]; cases s.liveRecord w.region <;> simp
  · show ({ c.line with queue := [], marks := [], flight := none, controlRun := 0 } : LineUnit) = _
    have := hc.line
    rw [bline] at this
    have h2 := congrArg (fun l : LineUnit => { l with controlRun := 0 }) this
    exact h2
  · exact ⟨cimage.trans bimage, cport.trans bport, cpending.trans bpending⟩

end Sys2Proof.Machine
end

