-- ==== Sys2Proof/Laws/Image.lean ====
section
/-! SUPPORT. Laws of the Image Store: reading after writing, and the canonical form that every operation keeps. -/

namespace Sys2Proof.Machine

/-! ### The canonical form -/

/-- The canonical form as a property of all entries. -/
theorem imageWf_iff (m : Image) :
    imageWf m = true ↔ m.Pairwise (fun c d => c.1 < d.1) ∧ ∀ c ∈ m, c.1 < 16384 ∧ c.2 ≠ 0 := by
  match m with
  | [] => simp [imageWf]
  | [(k, v)] => simp [imageWf]
  | (k, v) :: (k', v') :: rest =>
    have ih := imageWf_iff ((k', v') :: rest)
    simp only [imageWf, Bool.and_eq_true, bne_iff_ne, decide_eq_true_eq, ih]
    constructor
    · rintro ⟨⟨hv, hk⟩, hp, hall⟩
      have hp' := List.pairwise_cons.1 hp
      have h0 := hall (k', v') (by simp)
      refine ⟨List.pairwise_cons.2 ⟨?_, hp⟩, ?_⟩
      · intro c hc
        rcases List.mem_cons.1 hc with rfl | hc
        · exact hk
        · exact Nat.lt_trans hk (hp'.1 c hc)
      · intro c hc
        rcases List.mem_cons.1 hc with rfl | hc
        · exact ⟨Nat.lt_trans hk h0.1, hv⟩
        · exact hall c hc
    · rintro ⟨hp, hall⟩
      have hp' := List.pairwise_cons.1 hp
      exact ⟨⟨(hall (k, v) (by simp)).2, hp'.1 (k', v') (by simp)⟩, hp'.2, fun c hc => hall c (List.mem_cons_of_mem _ hc)⟩

/-- A byte whose address comes before every listed one reads 0. -/
theorem imageRead_below (m : Image) (a : Nat) (h : ∀ c ∈ m, a < c.1) : imageRead m a = 0 := by
  induction m with
  | nil => rfl
  | cons c m ih =>
    obtain ⟨k, v⟩ := c
    have hk : a < k := h (k, v) (by simp)
    simp only [imageRead, if_neg (Nat.ne_of_gt hk)]
    exact ih fun c hc => h c (List.mem_cons_of_mem _ hc)

/-- Reading one byte after writing one byte. -/
theorem imageRead_imageWrite (m : Image) (h : imageWf m = true) (a b : Nat) (v : Byte) :
    imageRead (imageWrite m a v) b = if b = a then v else imageRead m b := by
  obtain ⟨hp, -⟩ := (imageWf_iff m).1 h
  clear h
  induction m with
  | nil =>
    simp only [imageWrite]
    split
    · next hv => subst hv; simp [imageRead]
    · by_cases hb : b = a
      · simp [imageRead, hb]
      · simp [imageRead, hb, Ne.symm hb]
  | cons c m ih =>
    obtain ⟨k, w⟩ := c
    obtain ⟨hk, hp⟩ := List.pairwise_cons.1 hp
    have below : ∀ x, x ≤ k → imageRead m x = 0 := fun x hx => imageRead_below m x fun c hc => Nat.lt_of_le_of_lt hx (hk c hc)
    simp only [imageWrite]
    by_cases hb : b = a
    · subst hb
      rw [if_pos rfl]
      split
      · next h1 =>
        split
        · next hv => rw [imageRead, if_neg (Nat.ne_of_gt h1), below b (Nat.le_of_lt h1), hv]
        · rw [imageRead, if_pos rfl]
      · split
        · next h2 =>
          split
          · next hv => rw [below b (Nat.le_of_eq h2), hv]
          · rw [imageRead, if_pos rfl]
        · next h2 => rw [imageRead, if_neg (Ne.symm h2), ih hp, if_pos rfl]
    · rw [if_neg hb]
      split
      · split
        · rfl
        · rw [imageRead, if_neg (Ne.symm hb)]
      · split
        · next h2 =>
          have hkb : k ≠ b := fun e => hb (h2 ▸ e.symm)
          split
          · rw [imageRead, if_neg hkb]
          · rw [imageRead, imageRead, if_neg (Ne.symm hb), if_neg hkb]
        · rw [imageRead, imageRead, ih hp, if_neg hb]

/-- The addresses that a write leaves listed are among the old ones and the written one. -/
theorem mem_imageWrite (m : Image) (a : Nat) (v : Byte) (c : Host.Cell) (h : c ∈ imageWrite m a v) :
    c ∈ m ∨ (c = (a, v) ∧ v ≠ 0) := by
  induction m with
  | nil => by_cases hv : v = 0 <;> simp_all [imageWrite]
  | cons d m ih =>
    obtain ⟨k, w⟩ := d
    simp only [imageWrite] at h
    split at h
    · split at h
      · exact .inl h
      · rcases List.mem_cons.1 h with h | h
        · exact .inr ⟨h, ‹_›⟩
        · exact .inl h
    · split at h
      · split at h
        · exact .inl (List.mem_cons_of_mem _ h)
        · rcases List.mem_cons.1 h with h | h
          · exact .inr ⟨h, ‹_›⟩
          · exact .inl (List.mem_cons_of_mem _ h)
      · rcases List.mem_cons.1 h with h | h
        · exact .inl (h ▸ List.mem_cons_self)
        · rcases ih h with h | h
          · exact .inl (List.mem_cons_of_mem _ h)
          · exact .inr h

/-- A write to an address of the image keeps the canonical form. -/
theorem imageWf_imageWrite (m : Image) (a : Nat) (v : Byte) (ha : a < 16384) (h : imageWf m = true) :
    imageWf (imageWrite m a v) = true := by
  obtain ⟨hp, hall⟩ := (imageWf_iff m).1 h
  refine (imageWf_iff _).2 ⟨?_, fun c hc => ?_⟩
  · clear h hall
    induction m with
    | nil => simp only [imageWrite]; split <;> simp
    | cons d m ih =>
      obtain ⟨k, w⟩ := d
      have hpc := List.pairwise_cons.1 hp
      simp only [imageWrite]
      split
      · next hlt =>
        split
        · exact hp
        · refine List.pairwise_cons.2 ⟨fun c hc => ?_, hp⟩
          rcases List.mem_cons.1 hc with rfl | hc
          · exact hlt
          · exact Nat.lt_trans hlt (hpc.1 c hc)
      · next hge =>
        split
        · next he =>
          split
          · exact hpc.2
          · exact List.pairwise_cons.2 ⟨fun c hc => he ▸ hpc.1 c hc, hpc.2⟩
        · next hne =>
          refine List.pairwise_cons.2 ⟨fun c hc => ?_, ih hpc.2⟩
          rcases mem_imageWrite m a v c hc with hc | ⟨rfl, -⟩
          · exact hpc.1 c hc
          · exact Nat.lt_of_le_of_ne (Nat.le_of_not_lt hge) (Ne.symm hne)
  · rcases mem_imageWrite m a v c hc with hc | ⟨rfl, hv⟩
    · exact hall c hc
    · exact ⟨ha, hv⟩

/-- The image after pin reset is in canonical form. -/
theorem imageWf_reset : imageWf State.reset.image = true := rfl

/-! ### Runs of bytes -/

/-- Consecutive bytes within the image keep the canonical form. -/
theorem imageWf_imageWriteBytes (bs : List Byte) (m : Image) (a : Nat) (ha : a + bs.length ≤ 16384) (h : imageWf m = true) :
    imageWf (imageWriteBytes m a bs) = true := by
  induction bs generalizing m a with
  | nil => exact h
  | cons b bs ih =>
    simp only [List.length_cons] at ha
    exact ih _ _ (by omega) (imageWf_imageWrite m a b (by omega) h)

/-- Reading one byte after writing consecutive bytes: the byte of the run, or as before outside it. -/
theorem imageRead_imageWriteBytes (bs : List Byte) (m : Image) (a b : Nat) (ha : a + bs.length ≤ 16384) (h : imageWf m = true) :
    imageRead (imageWriteBytes m a bs) b = if a ≤ b ∧ b < a + bs.length then bs.getD (b - a) 0 else imageRead m b := by
  induction bs generalizing m a with
  | nil =>
    simp [imageWriteBytes]
  | cons v bs ih =>
    simp only [List.length_cons] at ha
    rw [imageWriteBytes, ih _ _ (by omega) (imageWf_imageWrite m a v (by omega) h), imageRead_imageWrite m h]
    by_cases hb : b = a
    · subst hb
      have h1 : ¬(b + 1 ≤ b ∧ b < b + 1 + bs.length) := by omega
      have h2 : b ≤ b ∧ b < b + (v :: bs).length := by simp
      simp
    · by_cases hr : a + 1 ≤ b ∧ b < a + 1 + bs.length
      · have h2 : a ≤ b ∧ b < a + (v :: bs).length := by simp; omega
        have h3 : b - a = (b - (a + 1)) + 1 := by omega
        rw [if_pos hr, if_pos h2, h3, List.getD_cons_succ]
      · have h2 : ¬(a ≤ b ∧ b < a + (v :: bs).length) := by simp; omega
        rw [if_neg hr, if_neg hb, if_neg h2]

theorem byteAddress_lt (r : Region) (o : Nat) (h : o < 128) : byteAddress r o < 16384 := by
  have := r.isLt; unfold byteAddress; omega

/-- A region's content written from a frame keeps the canonical form. -/
theorem imageWf_writeRegion (m : Image) (r : Region) (content : Vector Byte 128) (h : imageWf m = true) :
    imageWf (writeRegion m r content) = true :=
  imageWf_imageWriteBytes _ _ _ (by have := r.isLt; simp [byteAddress]; omega) h

/-- After a region's content is written, the region reads as the content and every other byte as before. -/
theorem imageRead_writeRegion (m : Image) (r : Region) (content : Vector Byte 128) (h : imageWf m = true) (b : Nat) :
    imageRead (writeRegion m r content) b =
      if 128 * r.val ≤ b ∧ b < 128 * r.val + 128 then content.toList.getD (b - 128 * r.val) 0 else imageRead m b := by
  have := r.isLt
  have e := imageRead_imageWriteBytes content.toList m (byteAddress r 0) b (by simp [byteAddress]; omega) h
  simpa [writeRegion, byteAddress] using e

/-! ### Lanes of a host word -/

/-- A host word whose lanes lie within the region keeps the canonical form. -/
theorem imageWf_writeLanes (m : Image) (r : Region) (base : Nat) (lanes : BitVec 4) (data : HostWord) (hb : base + 3 < 128)
    (h : imageWf m = true) : imageWf (writeLanes m r base lanes data) = true := by
  have step : ∀ (m : Image) (k : Nat), k ≤ 3 → imageWf m = true →
      imageWf (if lanes.getLsbD k then imageWrite m (byteAddress r (base + k)) (laneByte data k) else m) = true := by
    intro m k hk h
    split
    · exact imageWf_imageWrite _ _ _ (byteAddress_lt r _ (by omega)) h
    · exact h
  simp only [writeLanes, List.foldl_cons, List.foldl_nil]
  exact step _ 3 (by omega) (step _ 2 (by omega) (step _ 1 (by omega) (step _ 0 (by omega) h)))

/-- Reading one byte after one lane of a host word is written. -/
theorem imageRead_writeLane (m : Image) (h : imageWf m = true) (on : Bool) (a b : Nat) (v : Byte) :
    imageRead (if on then imageWrite m a v else m) b = if on = true ∧ b = a then v else imageRead m b := by
  cases on <;> simp [imageRead_imageWrite, h]

/-- After a host word is written, each enabled lane reads as its byte and every other byte as before. -/
theorem imageRead_writeLanes (m : Image) (r : Region) (base : Nat) (lanes : BitVec 4) (data : HostWord) (hb : base + 3 < 128)
    (h : imageWf m = true) (b : Nat) :
    imageRead (writeLanes m r base lanes data) b =
      if lanes.getLsbD 3 = true ∧ b = byteAddress r (base + 3) then laneByte data 3
      else if lanes.getLsbD 2 = true ∧ b = byteAddress r (base + 2) then laneByte data 2
      else if lanes.getLsbD 1 = true ∧ b = byteAddress r (base + 1) then laneByte data 1
      else if lanes.getLsbD 0 = true ∧ b = byteAddress r (base + 0) then laneByte data 0
      else imageRead m b := by
  have wf : ∀ (m : Image) (k : Nat), k ≤ 3 → imageWf m = true →
      imageWf (if lanes.getLsbD k then imageWrite m (byteAddress r (base + k)) (laneByte data k) else m) = true := by
    intro m k hk h
    split
    · exact imageWf_imageWrite _ _ _ (byteAddress_lt r _ (by omega)) h
    · exact h
  simp only [writeLanes, List.foldl_cons, List.foldl_nil]
  rw [imageRead_writeLane _ (wf _ 2 (by omega) (wf _ 1 (by omega) (wf _ 0 (by omega) h))),
    imageRead_writeLane _ (wf _ 1 (by omega) (wf _ 0 (by omega) h)), imageRead_writeLane _ (wf _ 0 (by omega) h),
    imageRead_writeLane _ h]

end Sys2Proof.Machine
end

