-- ==== Sys2Proof/Laws/Parked.lean ====
section
/-! SUPPORT. The parked writes at a grant, said once: `State.applyParked_applied`. -/

namespace Sys2Proof.Machine

open Sys2Proof.Safety

/-- One parked write of the region, applied. -/
theorem imageRead_applyOne (m : Image) (r : Region) (w : ParkedWrite) (hr : w.region = r) (h : imageWf m = true) (x : Nat) :
    imageRead (writeLanes m r w.base w.lanes w.data) x =
      if x / 4 = 32 * w.region.val + w.offset.val / 4 ∧ w.lanes.getLsbD (x % 4) then laneByte w.data (x % 4)
      else imageRead m x := by
  have ho := w.offset.isLt
  rw [imageRead_writeLanes m r w.base w.lanes w.data (by unfold ParkedWrite.base; omega) h x]
  subst hr
  unfold ParkedWrite.base byteAddress
  by_cases hx : x / 4 = 32 * w.region.val + w.offset.val / 4
  · have h4 : x % 4 = 0 ∨ x % 4 = 1 ∨ x % 4 = 2 ∨ x % 4 = 3 := by omega
    rcases h4 with e | e | e | e <;> rw [e]
    · rw [if_neg (by omega), if_neg (by omega), if_neg (by omega)]
      simp only [hx, true_and]
      have : x = 128 * w.region.val + (4 * (w.offset.val / 4) + 0) := by omega
      simp [this]
    · rw [if_neg (by omega), if_neg (by omega)]
      simp only [hx, true_and]
      have h1 : x = 128 * w.region.val + (4 * (w.offset.val / 4) + 1) := by omega
      have h0 : ¬x = 128 * w.region.val + (4 * (w.offset.val / 4) + 0) := by omega
      simp only [h0, and_false, if_false]
      simp [← h1]
    · rw [if_neg (by omega)]
      simp only [hx, true_and]
      have h2 : x = 128 * w.region.val + (4 * (w.offset.val / 4) + 2) := by omega
      have h1 : ¬x = 128 * w.region.val + (4 * (w.offset.val / 4) + 1) := by omega
      have h0 : ¬x = 128 * w.region.val + (4 * (w.offset.val / 4) + 0) := by omega
      simp only [h0, h1, and_false, if_false]
      simp [← h2]
    · simp only [hx, true_and]
      have h3 : x = 128 * w.region.val + (4 * (w.offset.val / 4) + 3) := by omega
      have h2 : ¬x = 128 * w.region.val + (4 * (w.offset.val / 4) + 2) := by omega
      have h1 : ¬x = 128 * w.region.val + (4 * (w.offset.val / 4) + 1) := by omega
      have h0 : ¬x = 128 * w.region.val + (4 * (w.offset.val / 4) + 0) := by omega
      simp only [h0, h1, h2, and_false, if_false]
      simp [← h3]
  · rw [if_neg (by omega), if_neg (by omega), if_neg (by omega), if_neg (by omega), if_neg (fun h => hx h.1)]

/-- Several parked writes of the region, applied in arrival order, and the canonical form kept. -/
theorem applied_fold (r : Region) (ws : List ParkedWrite) (hr : ∀ w, w ∈ ws → w.region = r) (m : Image) (h : imageWf m = true) :
    imageWf (ws.foldl (fun (m : Image) (x : ParkedWrite) => writeLanes m r x.base x.lanes x.data) m) = true ∧
    ∀ x, imageRead (ws.foldl (fun (m : Image) (x : ParkedWrite) => writeLanes m r x.base x.lanes x.data) m) x =
      parkedByte ws x (imageRead m x) := by
  induction ws generalizing m with
  | nil => exact ⟨h, fun _ => rfl⟩
  | cons w ws ih =>
    have hw := hr w List.mem_cons_self
    have ho := w.offset.isLt
    have hwf : imageWf (writeLanes m r w.base w.lanes w.data) = true :=
      imageWf_writeLanes m r _ _ _ (by unfold ParkedWrite.base; omega) h
    obtain ⟨h1, h2⟩ := ih (fun v hv => hr v (List.mem_cons_of_mem _ hv)) _ hwf
    refine ⟨h1, fun x => ?_⟩
    rw [List.foldl_cons, h2, imageRead_applyOne m r w hw h]
    rfl

/-- The lowest and the highest lane of a group are enabled, and every enabled lane lies between them. -/
theorem lane_bounds (l : BitVec 4) (h : l ≠ 0) :
    l.getLsbD (lowLane l) = true ∧ l.getLsbD (highLane l) = true ∧ lowLane l < 4 ∧ highLane l < 4 ∧
      ∀ k : Fin 4, l.getLsbD k.val = true → lowLane l ≤ k.val ∧ k.val ≤ highLane l := by
  revert l; decide

theorem foldl_min (f : ParkedWrite → Nat) (ws : List ParkedWrite) (a : Nat) :
    (ws.foldl (fun (a : Nat) (x : ParkedWrite) => min a (f x)) a = a ∨
      ∃ v, v ∈ ws ∧ ws.foldl (fun (a : Nat) (x : ParkedWrite) => min a (f x)) a = f v) ∧
    ws.foldl (fun (a : Nat) (x : ParkedWrite) => min a (f x)) a ≤ a ∧
    ∀ v, v ∈ ws → ws.foldl (fun (a : Nat) (x : ParkedWrite) => min a (f x)) a ≤ f v := by
  induction ws generalizing a with
  | nil => simp
  | cons w ws ih =>
    obtain ⟨h1, h2, h3⟩ := ih (min a (f w))
    rw [List.foldl_cons]
    refine ⟨?_, by omega, ?_⟩
    · rcases h1 with h1 | ⟨v, hv, h1⟩
      · rcases Nat.le_total a (f w) with h | h
        · left; rw [h1]; omega
        · right; exact ⟨w, List.mem_cons_self, by rw [h1]; omega⟩
      · right; exact ⟨v, List.mem_cons_of_mem _ hv, h1⟩
    · intro v hv
      rcases List.mem_cons.1 hv with rfl | hv
      · omega
      · exact h3 v hv

theorem foldl_max (f : ParkedWrite → Nat) (ws : List ParkedWrite) (a : Nat) :
    (ws.foldl (fun (a : Nat) (x : ParkedWrite) => max a (f x)) a = a ∨
      ∃ v, v ∈ ws ∧ ws.foldl (fun (a : Nat) (x : ParkedWrite) => max a (f x)) a = f v) ∧
    a ≤ ws.foldl (fun (a : Nat) (x : ParkedWrite) => max a (f x)) a ∧
    ∀ v, v ∈ ws → f v ≤ ws.foldl (fun (a : Nat) (x : ParkedWrite) => max a (f x)) a := by
  induction ws generalizing a with
  | nil => simp
  | cons w ws ih =>
    obtain ⟨h1, h2, h3⟩ := ih (max a (f w))
    rw [List.foldl_cons]
    refine ⟨?_, by omega, ?_⟩
    · rcases h1 with h1 | ⟨v, hv, h1⟩
      · rcases Nat.le_total (f w) a with h | h
        · left; rw [h1]; omega
        · right; exact ⟨w, List.mem_cons_self, by rw [h1]; omega⟩
      · right; exact ⟨v, List.mem_cons_of_mem _ hv, h1⟩
    · intro v hv
      rcases List.mem_cons.1 hv with rfl | hv
      · omega
      · exact h3 v hv

/-- The parked writes of a region are applied at its grant. -/
theorem State.applyParked_applied (r : Region) (s : State) (hI : imageWf s.image = true)
    (hp : ∀ w, w ∈ s.parkedFor r → w.lanes ≠ 0) :
    Applied r s (s.applyParked r) ∧ imageWf (s.applyParked r).image = true := by
  have hr : ∀ w, w ∈ s.parkedFor r → w.region = r := fun w hw => by
    simpa using (List.mem_filter.1 hw).2
  unfold State.applyParked
  cases hw : s.parkedFor r with
  | nil =>
    refine ⟨⟨?_, ?_, fun _ => rfl, ?_, rfl⟩, hI⟩
    · intro x; rw [hw]; rfl
    · refine (List.filter_eq_self.2 fun w hm => ?_).symm
      have : w ∉ s.parkedFor r := by rw [hw]; simp
      simp only [bne_iff_ne, ne_eq]
      intro h; exact this (List.mem_filter.2 ⟨hm, by simp [h]⟩)
    · intro w hm; rw [hw] at hm; cases hm
  | cons w ws =>
    dsimp only
    rw [hw] at hr hp
    obtain ⟨f1, f2⟩ := applied_fold r (w :: ws) hr s.image hI
    generalize hm : (w :: ws).foldl (fun (m : Image) (x : ParkedWrite) => writeLanes m r x.base x.lanes x.data) s.image = m at f1 f2
    have lb := fun v (hv : v ∈ w :: ws) => lane_bounds v.lanes (hp v hv)
    obtain ⟨a1, a2, a3⟩ := foldl_min ParkedWrite.low ws w.low
    obtain ⟨b1, b2, b3⟩ := foldl_max ParkedWrite.high ws w.high
    have hlow : ∃ v, v ∈ w :: ws ∧ lowOf w ws = v.low := by
      rcases a1 with a1 | ⟨v, hv, a1⟩
      · exact ⟨w, List.mem_cons_self, a1⟩
      · exact ⟨v, List.mem_cons_of_mem _ hv, a1⟩
    have hhigh : ∃ v, v ∈ w :: ws ∧ highOf w ws = v.high := by
      rcases b1 with b1 | ⟨v, hv, b1⟩
      · exact ⟨w, List.mem_cons_self, b1⟩
      · exact ⟨v, List.mem_cons_of_mem _ hv, b1⟩
    have hlo : ∀ v, v ∈ w :: ws → lowOf w ws ≤ v.low := by
      intro v hv; rcases List.mem_cons.1 hv with rfl | hv
      · exact a2
      · exact a3 v hv
    have hhi : ∀ v, v ∈ w :: ws → v.high ≤ highOf w ws := by
      intro v hv; rcases List.mem_cons.1 hv with rfl | hv
      · exact b2
      · exact b3 v hv
    have hbase : ∀ v : ParkedWrite, v.base ≤ 124 := fun v => by have := v.offset.isLt; unfold ParkedWrite.base; omega
    obtain ⟨v1, hv1, e1⟩ := hlow
    obtain ⟨v2, hv2, e2⟩ := hhigh
    have ea : (toOffset (lowOf w ws)).val = lowOf w ws := by
      have := (lb v1 hv1).2.2.1; have := hbase v1
      show lowOf w ws % 128 = _
      rw [e1]; unfold ParkedWrite.low; omega
    have eb : (toOffset (highOf w ws)).val = highOf w ws := by
      have := (lb v2 hv2).2.2.2.1; have := hbase v2
      show highOf w ws % 128 = _
      rw [e2]; unfold ParkedWrite.high; omega
    refine ⟨⟨?_, ?_, ?_, ?_, ?_⟩, ?_⟩
    · intro x; rw [State.addSpan_image, hw]; exact f2 x
    · rw [State.addSpan_parked]; rfl
    · rintro (h | h)
      · rw [hw] at h; cases h
      · have hn : ∀ (u : State) (a b : Offset), (u.entry r).role ≠ .owner ∨ u.pub.barred = true → u.addSpan r a b = u := by
          intro u a b hu
          unfold State.addSpan
          refine if_neg ?_
          rcases hu with hu | hu <;> simp [State.additionMade, hu]
        rw [hn _ _ _ (by exact h)]
        rfl
    · intro x _ ho hq
      refine ⟨toOffset (lowOf w ws), toOffset (highOf w ws), ?_, ?_, ?_, ?_⟩
      · rw [hw, ea, e1]
        exact ⟨v1, hv1, ⟨lowLane v1.lanes, (lb v1 hv1).2.2.1⟩, (lb v1 hv1).1, rfl⟩
      · rw [hw, eb, e2]
        exact ⟨v2, hv2, ⟨highLane v2.lanes, (lb v2 hv2).2.2.2.1⟩, (lb v2 hv2).2.1, rfl⟩
      · rw [hw, ea, eb]
        rintro v o hv ⟨k, hk, rfl⟩
        have := (lb v hv).2.2.2.2 k hk
        have h1 := hlo v hv; have h2 := hhi v hv
        unfold ParkedWrite.low ParkedWrite.base at h1
        unfold ParkedWrite.high ParkedWrite.base at h2
        omega
      · rw [State.addSpan_eq _ _ _ _ (by exact ho) (by exact hq)]; rfl
    · have hs : ∀ (u : State) (a b : Offset), { u.addSpan r a b with pub := u.pub } = u := by
        intro u a b; unfold State.addSpan; split
        · split <;> rfl
        · rfl
      exact congrArg (fun u : State => { u with image := s.image, parked := s.parked, pub := s.pub })
        (hs (State.dropParked r { s with image := m }) _ _)
    · rw [State.addSpan_image]; exact f1

end Sys2Proof.Machine
end

