-- ==== Sys2Proof/Laws/Whole.lean ====
section
/-! SUPPORT. What each shared operation does in every state, as one record update in the vocabulary of Sys2Proof/Safety.lean. -/

namespace Sys2Proof.Machine

open Sys2Proof.Safety

/-! ### What is handed to the Line Unit -/

/-- R166, R167, R119. -/
theorem State.hand_handed (m : Mark) (s : State) : s.hand m = { s with line := handed m s } := by
  unfold handed
  split
  · next h => rw [State.hand_leaving _ _ h]
  · next h => rw [State.hand_eq _ _ (by simpa using h)]

/-- R168, R119. -/
theorem State.answer_replied (q : QFrame) (s : State) : s.answer q = { s with line := replied q s } := by
  unfold replied
  split
  · next h => rw [State.answer_leaving _ _ h]
  · next h => rw [State.answer_eq _ _ (by simpa using h)]

/-- R66, R73, R89. -/
theorem State.refuseAll_refused (r : Region) (why : RefuseReason) (b : Option Station) (ps : List Station) (s : State) :
    s.refuseAll r why b ps = { s with line := refused r why b ps s } := by
  unfold refused
  split
  · next h => rw [State.refuseAll_leaving _ _ _ _ _ h]
  · next h => rw [State.refuseAll_eq _ _ _ _ _ (by simpa using h)]

/-- R43. -/
theorem State.needClaim_wanted (r : Region) (s : State) : s.needClaim r = { s with line := wanted r s } := by
  unfold wanted
  split
  · next h =>
    unfold State.needClaim
    split
    · rfl
    · rw [State.hand_leaving _ _ h]
  · next h => rw [State.needClaim_eq _ _ (by simpa using h)]

/-- R43, R46. -/
theorem State.withdrawIfRoom_line (r : Region) (s : State) : s.withdrawIfRoom r = { s with line := withdrawnLine r s } := by
  unfold State.withdrawIfRoom withdrawnLine LineUnit.room LineUnit.append
  by_cases h1 : s.ctl.leaveQueued = true
  · simp [h1]
  · by_cases h2 : s.line.queue.length < 16 <;> simp [h1, h2, Config.maxQueue]

/-- A CLAIM handed over brings no WITHDRAW mark, so no record becomes closing by it (R54). -/
theorem wanted_withdraws (r q : Region) (s : State) :
    (wanted r s).marks.any (Mark.isWithdraw q) = s.line.marks.any (Mark.isWithdraw q) := by
  unfold wanted claimLine handLine
  repeat' split
  all_goals first | rfl | simp [Mark.isWithdraw]

/-! ### The publish set -/

/-- R23, R37. -/
theorem State.addFull_added (r : Region) (s : State) : s.addFull r = { s with pub := added r s } := by
  unfold added
  split
  · next h => rw [State.addFull_barred _ _ h]
  · next h => rw [State.addFull_eq _ _ (by simpa using h)]

/-! ### The directory entry -/

/-- R5. -/
theorem State.markStale_eq (r : Region) (d : StaleDetail) (s : State) : s.markStale r d = { s with
    dir := put s.dir r (staleEntry (s.entry r))
    cmd := noticed (if (s.entry r).replica = .valid then [.regionStale r (s.entry r).owner d] else []) s.ctl.ticks s.cmd } := by
  unfold State.markStale staleEntry DirEntry.makeStale
  dsimp only
  rcases (s.entry r).replica
  · simp only [if_true, State.notify_eq]; rfl
  · simp only [reduceCtorEq, if_false, noticed_nil]; rfl

/-- R9, R17, R58, R82. -/
theorem State.startTenure_eq (r : Region) (seq : Half) (s : State) : s.startTenure r seq = { s with
    dir := put s.dir r { s.entry r with
      owner := some s.ctl.ownId, role := .owner, replica := .valid, lastSeq := seq, held := false
      tenure := if s.ctl.config.param 5 = 0 then .stopped else .running (s.ctl.config.param 5), staleAge := 0, repair := false }
    claims := { s.claims with serve := put s.claims.serve r { s.serving r with redirect := .stopped } } } := rfl

/-! ### Claim records -/

/-- R43, R53. -/
theorem State.freeRecord_eq (r : Region) (s : State) : s.freeRecord r = { s with
    line := endedLine r s.line, claims := { s.claims with records := put s.claims.records r none } } := by
  unfold State.freeRecord
  rw [State.endRecordFrames_eq]
  rfl

/-- R44, R75. -/
theorem State.toOrphanClaim_eq (r : Region) (s : State) : s.toOrphanClaim r = orphanedClaim r s := by
  unfold State.toOrphanClaim orphanedClaim
  rcases s.liveRecord r with _ | c
  · rfl
  · dsimp only
    split
    · rw [State.needClaim_wanted]; rfl
    · rfl

/-- R78. -/
theorem State.toNormalClaim_eq (r : Region) (s : State) : s.toNormalClaim r = normalizedClaim r s := by
  unfold State.toNormalClaim normalizedClaim
  rcases s.liveRecord r with _ | c
  · rfl
  · dsimp only
    split
    · rw [State.needClaim_wanted]; rfl
    · rfl

/-- A record is live by the records and the marks alone (R54). -/
theorem State.liveRecord_congr {s t : State} (h1 : t.claims.records = s.claims.records) (h2 : t.line.marks = s.line.marks)
    (r : Region) : t.liveRecord r = s.liveRecord r := by
  unfold State.liveRecord State.closing State.record
  rw [h1, h2]

/-! ### A rival's CLAIM and an answer -/

/-- R76. -/
theorem LineUnit.claimFell_eq (r : Region) (l : LineUnit) : l.claimFell r = { l with
    flight := l.flight.map fun f => { f with fallen := f.fallen || (f.job == .control (.claim r) && f.frame.isSome) } } := by
  unfold LineUnit.claimFell
  dsimp only
  congr 2
  funext f
  cases f with
  | mk job attempt frame fallen wait transmitting stale =>
    by_cases hj : job = .control (.claim r)
    · subst hj; cases frame <;> simp
    · simp [hj]

/-- R76, R77, R84. -/
theorem State.claimWithdrawn_eq (r : Region) (s : State) : s.claimWithdrawn r = { s with line := unaskedLine r s.line } := by
  unfold State.claimWithdrawn
  dsimp only
  rw [LineUnit.claimFell_eq]
  rfl

/-- R58. -/
theorem State.redirectClaim_eq (p : Station) (r : Region) (s : State) : s.redirectClaim p r =
    if (s.serving r).redirect.isRunning = true then { s with line := replied (.refuse r p .notOwner (s.entry r).owner) s } else s := by
  unfold State.redirectClaim
  rw [State.answer_replied]

/-! ### Serving -/

/-- With claimants a region that goes on is served, whatever the mode (R62, R63). -/
theorem State.goOn_serve (s : State) (r : Region) (h : s.claimants r ≠ []) : s.goOn r = s.serve r := by
  have hc : (s.serve r).claimants r = s.claimants r := by
    unfold State.serve
    split
    · rw [State.hand_claimants]; rfl
    · rfl
  unfold State.goOn State.releaseIfLeaving
  rw [if_neg]
  rintro ⟨-, h2⟩
  rw [hc] at h2
  exact h (by simpa using h2)

/-! ### Conflicts -/

/-- R87. -/
theorem State.winConflict_eq (r : Region) (rival : Station) (s : State) : s.winConflict r rival = won r rival s := by
  unfold State.winConflict won
  rw [State.addFull_added, State.notify_eq]

end Sys2Proof.Machine
end

