-- ==== Sys2Proof/Laws/Receive.lean ====
section
/-! SUPPORT. The receive dispatch (R92, R173) and the announcements (R93 to R97), each said once. -/

namespace Sys2Proof.Machine

open Sys2Proof.Safety

/-- R96, R98. -/
theorem RosterEntry.heardAgain_eq (s : State) (e : RosterEntry) : e.heardAgain s.ctl.config = heardEntry s e := by
  have h : silenceLimit s.ctl.config e = limitOf s e := by
    unfold silenceLimit limitOf ConfigBlock.listenMs ConfigBlock.misses ConfigBlock.presenceMs
    rcases e.state
    · simp
    · simp only [if_true]
      congr 2
      split <;> omega
    · simp
  simp [RosterEntry.heardAgain, heardEntry, h, satSucc_eq, Timer.start]

/-- A good frame of another station is counted and goes to the roster, and then to its blocks. -/
theorem State.receive_deliver {s : State} {h : Header} {p : Station} (hr : s.ctl.mode.receives = true)
    (ht : s.transmitting = false) (hs : stationOf h.source = some p) (hp : p ≠ s.ctl.ownId) (v : RosterView)
    (blocks : Station → State → State) :
    s.receive h v blocks = ({ s with line := burstLine h.source s.line } : State).deliver p h.major v (blocks p) := by
  have h1 : ¬(s.ctl.mode = .reset ∨ s.transmitting = true) := by
    rintro (h | h)
    · rw [h] at hr; cases hr
    · rw [h] at ht; cases ht
  unfold State.receive State.sense
  rw [if_neg h1, if_pos hr]
  simp only [hs]
  have e : ((s.foundBurst (Burst.good h.source)).countGood).ctl = s.ctl := rfl
  rw [if_neg (by rw [e]; exact hp)]
  simp only [State.foundBurst, State.countGood, burstLine, satSucc_eq]

/-- The roster takes a frame of a kind other than PRESENCE, JOIN and LEAVE. -/
theorem State.takeRoster_other (s : State) (h : Header) (p : Station) (m : BitVec 4) :
    ({ s with line := burstLine h.source s.line } : State).takeRoster p m .other = heardFrom h p s := by
  unfold State.takeRoster heardFrom
  have hp : ({ s with line := burstLine h.source s.line } : State).peer p = s.peer p := rfl
  simp only [hp]
  rcases hs : (s.peer p).state with _ | _ | _
  · simp
  · simp only [if_true, RosterEntry.heardAgain_eq]; rfl
  · simp

/-- A frame that is heard does not change which roster state its source has. -/
theorem heardFrom_peer_state (h : Header) (p q : Station) (s : State) :
    ((heardFrom h p s).peer q).state = (s.peer q).state := by
  unfold heardFrom State.peer
  by_cases hq : q = p
  · subst hq
    split <;> simp [heardEntry]
  · split
    · simp [pick_put, hq]
    · rfl

/-- A frame of revision 2 from a peer that is not INCOMPATIBLE goes on to its blocks. -/
theorem State.receive_heard {s : State} {h : Header} {p : Station} (H : Heard s h p) (blocks : Station → State → State) :
    s.receive h .other blocks = blocks p (heardFrom h p s) := by
  rw [State.receive_deliver H.receives H.silent H.source H.other]
  unfold State.deliver
  simp only [State.takeRoster_other]
  rw [if_pos ⟨H.major, by rw [heardFrom_peer_state]; exact H.compatible⟩]

/-- And at its region where it carries one (R177). -/
theorem State.receive_region {s : State} {h : Header} {p : Station} (H : Heard s h p) {r : Region}
    (hr : regionOf h.region = some r) (f : Station → Region → State → State) :
    s.receive h .other (fun p => inRegion h (f p)) = f p r (heardFrom h p s) := by
  rw [State.receive_heard H]
  simp [inRegion, hr]

@[simp] theorem heardFrom_entry (h : Header) (p : Station) (s : State) (r : Region) : (heardFrom h p s).entry r = s.entry r := rfl
@[simp] theorem heardFrom_ctl (h : Header) (p : Station) (s : State) : (heardFrom h p s).ctl = s.ctl := rfl
@[simp] theorem heardFrom_claims (h : Header) (p : Station) (s : State) : (heardFrom h p s).claims = s.claims := rfl
@[simp] theorem heardFrom_pub (h : Header) (p : Station) (s : State) : (heardFrom h p s).pub = s.pub := rfl
@[simp] theorem heardFrom_image (h : Header) (p : Station) (s : State) : (heardFrom h p s).image = s.image := rfl
@[simp] theorem heardFrom_parked (h : Header) (p : Station) (s : State) : (heardFrom h p s).parked = s.parked := rfl
@[simp] theorem heardFrom_cmd (h : Header) (p : Station) (s : State) : (heardFrom h p s).cmd = s.cmd := rfl
@[simp] theorem heardFrom_record (h : Header) (p : Station) (s : State) (r : Region) :
    (heardFrom h p s).record r = s.record r := rfl
@[simp] theorem heardFrom_liveRecord (h : Header) (p : Station) (s : State) (r : Region) :
    (heardFrom h p s).liveRecord r = s.liveRecord r := rfl
@[simp] theorem heardFrom_serving (h : Header) (p : Station) (s : State) (r : Region) :
    (heardFrom h p s).serving r = s.serving r := rfl
@[simp] theorem heardFrom_claimants (h : Header) (p : Station) (s : State) (r : Region) :
    (heardFrom h p s).claimants r = s.claimants r := rfl

/-- The first field that differs, by R95. -/
theorem firstMismatch_differing (e : RosterEntry) (x : Profile) :
    differing e 2 x = [] ∧ firstMismatch e x = none ∨ ∃ f l, differing e 2 x = f :: l ∧ firstMismatch e x = some f := by
  unfold differing firstMismatch Config.majorRevision profileMinor profileHomes
  simp only [if_true]
  by_cases h1 : e.major ≠ 2 ∨ e.minor ≠ x.minor.setWidth 4
  · right
    exact ⟨.revision, _, by rw [if_pos h1]; rfl, by rw [if_pos h1]⟩
  · rw [if_neg h1, if_neg h1]
    clear h1
    by_cases h2 : e.presence = x.presence <;> by_cases h3 : e.refresh = x.refresh <;>
      by_cases h4 : e.homeCount = min x.homeCount.toNat 128 <;> simp [h2, h3, h4]

/-- R92 to R95, R97. -/
theorem State.announcement_eq (p : Station) (major : BitVec 4) (profile : Profile) (a : Announced) (byJoin : Bool) (s : State) :
    s.announcement p major profile a byJoin = { s with
      roster := put s.roster p (announced s p major profile a byJoin).1
      cmd := noticed (announced s p major profile a byJoin).2 s.ctl.ticks s.cmd } := by
  have hself : put s.roster p (s.peer p) = s.roster := by unfold State.peer; simp
  unfold State.announcement announced
  dsimp only
  rcases hs : (s.peer p).state with _ | _ | _
  · by_cases hm : major = 2
    · subst hm
      simp only [Config.majorRevision, if_true, State.notify_eq, newPeer, createdPresent, profileMinor, profileHomes,
        silenceLimit, State.setPeer, Timer.start]
      rfl
    · simp only [Config.majorRevision, hm, if_false, State.notify_eq, foreignPeer, createdIncompatible, State.setPeer,
        Timer.start]
      rfl
  · unfold State.laterAnnouncement
    simp only [RosterEntry.heardAgain_eq, Config.majorRevision]
    by_cases hm : major = 2
    · subst hm
      simp only [if_true]
      rcases firstMismatch_differing (s.peer p) profile with ⟨h1, h2⟩ | ⟨f, l, h1, h2⟩
      · simp only [h1, h2, noticed_nil]; rfl
      · simp only [h1, h2]
        rcases (s.peer p).mismatch
        · simp only [State.notify_eq]; rfl
        · simp only [noticed_nil]; rfl
    · have h1 : differing (s.peer p) major profile = [.revision] := by unfold differing; rw [if_neg hm]
      simp only [hm, if_false, h1]
      rcases (s.peer p).mismatch
      · simp only [State.notify_eq]; rfl
      · simp only [noticed_nil]; rfl
  · rcases byJoin with _ | _
    · simp only [RosterEntry.heardAgain_eq, Bool.false_eq_true, if_false, noticed_nil]; rfl
    · simp only [if_true, noticed_nil, hself]

end Sys2Proof.Machine
end

