-- ==== Sys2Proof/Tests/Slice0.lean ====
section
/-! SUPPORT. Tests: the spec's worked examples and tables, ill-formed terms, and, named witness_<statement>, states and operands
that meet the hypotheses of each statement of Sys2Proof/Certificates/Slice0/Obligations.lean, clause by clause. -/

namespace Sys2Proof.Tests

open Sys2Proof.Machine Sys2Proof.Safety

-- One theorem after another: each is short, and all at once they ask for a thread each.
set_option Elab.async false

/-! ### Small states -/

/-- The window table of spec/07 section 7.1.2, and a window 3 of one unit to region 127 without claim on write. -/
def windows : Vector Byte 32 :=
  #v[0x03, 0, 16, 0, 0x05, 0, 128, 0, 0x0D, 128, 8, 40, 0x01, 136, 1, 127, 0, 0, 0, 0, 0, 0, 0, 0, 0, 0, 0, 0, 0, 0, 0, 0]

/-- The default parameters, home regions 0 and 127, and those windows. -/
def config : ConfigBlock :=
  { ConfigBlock.reset with homeSet := #v[1, 0, 0, 0, 0, 0, 0, 0, 0, 0, 0, 0, 0, 0, 0, 0x80], windows := windows }

/-- A PRESENT peer with the default parameters. -/
def present : RosterEntry :=
  { RosterEntry.reset with state := .present, major := 2, minor := 1, presence := 10, refresh := 10, silence := .running 300 }

/-- The entry of an owned region. -/
def owned : DirEntry := { DirEntry.reset with owner := some 11, role := .owner, replica := .valid }

/-- The entry of a region of a peer. -/
def ofPeer (p : Station) : DirEntry := { DirEntry.reset with owner := some p, role := .peer, replica := .valid }

/-- Station 11, ACTIVE: regions 0, 16 and 127 OWNER, 20 HANDING, 42 and 46 PEER of station 5, 46 STALE, the others ORPHAN; stations 5
and 20 PRESENT, 31 INCOMPATIBLE. -/
def station : State :=
  { State.reset with
    port := { nrstHigh := true, answer := none }
    ctl := { Controller.reset with mode := .active, cause := .joined, ownId := 11, config := config }
    roster := put (put (put State.reset.roster 5 present) 20 present) 31 { RosterEntry.reset with state := .incompatible }
    dir := put (put (put (put (put (put State.reset.dir 0 owned) 16 owned) 127 owned) 20 { owned with role := .handing })
      42 (ofPeer 5)) 46 { ofPeer 5 with replica := .stale } }

/-- The station in another state. -/
def inMode (m : Mode) (s : State) : State := { s with ctl := { s.ctl with mode := m } }

/-- A claim record. -/
def claim (k : ClaimKind) (st : ClaimState) (n : Nat) : ClaimRecord := { newRecord .command k with state := st, attempts := n }

/-- The station with a record for a region. -/
def claiming (r : Region) (c : ClaimRecord) (s : State) : State := s.setRecord r (some c)

/-- The station with claimants queued for a region. -/
def queued (r : Region) (ps : List Station) (s : State) : State :=
  { s with claims := { s.claims with table := s.claims.table ++ ps.map fun p => ⟨r, p⟩ } }

/-- A frame, for where any will do. -/
def anyFrame : Frame := { header := { major := 2, source := 11, region := 0, seq := 1 }, payload := .claim }

/-- The station with a frame in flight. -/
def flying (f : Flight) (s : State) : State := { s with line := { s.line with flight := some f } }

/-- A frame whose deferral wait runs. -/
def deferring (j : Job) (x : Option Frame) : Flight :=
  { job := j, attempt := 1, frame := x, fallen := false, wait := some 4, transmitting := false, staleAtTake := false }

/-- A frame whose attempt is under way. -/
def sending (j : Job) (n : Nat) : Flight :=
  { job := j, attempt := n, frame := some anyFrame, fallen := false, wait := none, transmitting := true, staleAtTake := false }

/-- The frame no longer stands. -/
def fell (f : Flight) : Flight := { f with fallen := true }

/-- The station with carrier on the line. -/
def underCarrier (s : State) : State := { s with line := { s.line with carrier := true } }

/-- The station with n frames in its control queue. -/
def queueOf (n : Nat) (s : State) : State :=
  { s with line := { s.line with queue := List.replicate n { frame := .join, fallen := false } } }

/-- The header of a frame from a station for a region byte. -/
def header (source region : Byte) (seq : Half) : Header := { major := 2, source := source, region := region, seq := seq }

/-- What holds of the item that an option holds holds of every item that it holds. -/
theorem only {α : Type} {o : Option α} {P : α → Prop} {c : α} (h : o = some c) (hp : P c) : ∀ x, o = some x → P x := by
  intro x hx
  rw [h] at hx
  exact (Option.some.inj hx) ▸ hp

/-- Nothing stands in an empty option. -/
theorem nothing {α : Type} {o : Option α} {P : α → Prop} (h : o = none) : ∀ x, o = some x → P x := by
  intro x hx
  rw [h] at hx
  cases hx

/-! ### Ill-formed terms -/

theorem test_wellFormed_configurationWrite : (Instr.configurationWrite 66 0b1111 0).wellFormed = false := by decide

theorem test_wellFormed_registerWrite_own_row : (Instr.registerWrite 11 0b0001 0).wellFormed = false := by decide

theorem test_wellFormed_registerWrite_command : (Instr.registerWrite 4 0b0011 0).wellFormed = false := by decide

theorem test_wellFormed_unknownCommand : (Instr.unknownCommand none 0x15).wellFormed = false := by decide

theorem test_wellFormed_noSourceFrame : (Instr.noSourceFrame 31).wellFormed = false := by decide

theorem test_wellFormed_unknownKindFrame : (Instr.unknownKindFrame 12 (header 5 0 0)).wellFormed = false := by decide

theorem test_wellFormed_updateReceived_length : (Instr.updateReceived (header 5 0 0) 0 2 [1]).wellFormed = false := by decide

theorem test_wellFormed_updateReceived_long :
    (Instr.updateReceived (header 5 0 0) 0 144 (List.replicate 144 1)).wellFormed = false := by
  decide +kernel

/-! ### Worked examples and tables of the spec -/

/-- Spec/01 section 1.3.1: last sequence 65 534. -/
theorem test_sequences_near_the_wrap :
    [(65534 : Half), 65535, 0, 1, 32765, 32766, 65533].map (fun s => classify s 65534) =
      [.same, .next, .gap, .gap, .gap, .older, .older] := by decide

/-- R126: the nine groups of lanes, and the enables that form none. -/
theorem test_lane_groups :
    (List.range 16).map (fun n => laneGroup (BitVec.ofNat 4 n)) =
      [none, some (0, 1), some (1, 1), some (0, 2), some (2, 1), none, none, none,
       some (3, 1), some (0, 4), none, some (0, 4), some (2, 2), some (0, 4), none, some (0, 4)] := by decide

/-- Spec/07 section 7.1.2: host addresses 0x0400, 0x0900, 0x1510, 0x4108, 0x4284 and 0x6000. -/
theorem test_window_example :
    ([0x0400, 0x0900, 0x1510, 0x4108, 0x4284, 0x6000].map fun a =>
      ((windowTarget config (BitVec.ofNat 13 (a / 4))).map fun t => t.2.val, wordOffset (BitVec.ofNat 13 (a / 4)))) =
      [(some 8, 0), (some 18, 0), (some 42, 16), (some 42, 8), (some 45, 4), (none, 0)] := by decide +kernel

/-- Spec/07 section 7.7, step 1: a 4-byte write at 0x4108 parks at region 42, offset 8, behind a new NORMAL record of origin WRITE. -/
theorem test_window_write_parks :
    (station.windowWrite 0x1042 0b1111 0x04030201).parked =
        [{ region := 42, offset := 8, length := 4, data := 0x04030201, lanes := 0b1111 }] ∧
      (station.windowWrite 0x1042 0b1111 0x04030201).record 42 = some (newRecord .write .normal) := by decide +kernel

/-- Spec/07 section 7.7, step 6: a write through the write-protected window is answered ERROR. -/
theorem test_window_write_protected :
    (station.windowWrite 0x100 0b1111 0).port.answer = some { ok := false, data := 0 } := by decide +kernel

/-- R24: a 4-byte write at offset 8 with lanes 0 and 3 alone writes those two bytes and adds the span 8 to 11. -/
theorem test_window_write_outer_lanes :
    (station.windowWrite 514 0b1001 0x44332211).image = [(2056, 0x11), (2059, 0x44)] ∧
      (station.windowWrite 514 0b1001 0x44332211).pubEntry 16 = some { low := 8, high := 11, full := false } := by
  decide +kernel

/-- Spec/02 section 2.7: the spans 8 to 11 and 2 to 2 merge to 2 to 11, and at pointer 60 the offer is 70 of 12 and 70. -/
theorem test_publish_set :
    ((station.addSpan 0 8 11).addSpan 0 2 2).pubEntry 0 = some { low := 2, high := 11, full := false } ∧
      State.offered { station with pub :=
        { station.pub with pointer := 60, set := put (put station.pub.set 12 (some ⟨0, 1, false⟩)) 70 (some ⟨0, 1, false⟩) } } =
        some 70 := by decide +kernel

/-- R37: the LEAVE frame bars additions over a RESTART and in LISTEN, and the entry to ACTIVE ends the bar. -/
theorem test_bar_on_additions :
    let left := ((inMode .leaving station).queueLeave.goOffline).restart 11
    let listening := (inMode .listen left).setEntry 0 owned
    listening.pub.barred = true ∧ (listening.addFull 0).pubEntry 0 = none ∧
      (listening.enterActive.addFull 0).pubEntry 0 = some { low := 0, high := 127, full := true } := by decide +kernel

/-- Spec/09 section 9.11: the waits of stations 12, 20, 3 and 5 at rotation 9, and of 20 and 3 at rotation 13. -/
theorem test_deferral_waits :
    [deferralWait 12 9 1 (.control (.claim 0)), deferralWait 20 9 1 .presence, deferralWait 3 9 1 (.control (.wait 0 1 1)),
      deferralWait 5 9 1 (.update 0), deferralWait 20 13 1 .presence, deferralWait 3 13 1 (.control (.wait 0 1 1))] =
      [13, 37, 82, 184, 25, 70] := by decide

/-- R160: after a first attempt that collided on a silent line, the second attempt of station 11 waits 4 + 3 * 18 us at rotation 0; with
carrier on the line no wait runs yet. -/
theorem test_wait_after_silent_collision :
    (flying (sending .presence 1) station).collided.line.flight.map (fun f => (f.attempt, f.wait)) = some (2, some 58) ∧
      (flying (sending .presence 1) (underCarrier station)).collided.line.flight.map (fun f => (f.attempt, f.wait)) =
        some (2, none) := by decide +kernel

/-- R81, R82: a record made while the TAKE was under way is granted with the note of the frame's capture. -/
theorem test_grant_tells_the_captured_replica :
    (flying { sending (.control (.take 50)) 1 with staleAtTake := true }
      (claiming 50 (newRecord .command .orphan) station)).carried.cmd.notices.map (·.notice) = [.grantedTake 50 .command true] := by
  decide +kernel

/-- R58, R77: a rival's CLAIM defers the orphan claim, draws no answer though the redirect timer runs, and ends the CLAIM in flight. -/
theorem test_deferring_claim_falls :
    let s := flying (deferring (.control (.claim 50)) (some anyFrame)) (claiming 50 (claim .orphan .asking 1)
      (station.setServing 50 { ServeEntry.reset with redirect := .running 1 }))
    let t := s.takeClaim 5 50
    (t.liveRecord 50).map (fun c => (c.state, c.deferredTo)) = some (.deferred, some 5) ∧ t.line.queue = [] ∧
      t.line.flight.map (·.fallen) = some true := by decide +kernel

/-- R76, R79: back in ASKING the record has a fresh CLAIM queued, and the one in flight is not sent again. -/
theorem test_deferred_claim_is_not_sent_again :
    let s := flying (fell (deferring (.control (.claim 50)) (some anyFrame)))
      (claiming 50 (claim .orphan .asking 1) station)
    (s.needClaim 50).line.queue = [{ frame := .claim 50, fallen := false }] ∧ s.waitEnds.line.flight = none := by decide +kernel

/-- R159: after a good frame of station 12 the rotation counter is 13, and after station 31's it is 0. -/
theorem test_rotation : [nextRotation 9 (.good 12), nextRotation 9 (.good 31), nextRotation 31 .bad] = [13, 0, 0] := by decide

/-- R172: the check register of no bytes, and that the check of one byte differs with its bit order. -/
theorem test_frame_check : frameCheck [] = 0xFFFF ∧ frameCheck [0x01] ≠ frameCheck [0x80] := by decide

/-- Spec/10 section 10.1: the header of a CLAIM of station 11 for region 42. -/
theorem test_claim_bytes : (Frame.bytes { header := header 11 42 0, payload := .claim }).take 5 = [0x42, 11, 42, 0, 0] := by decide

/-- Spec/10 section 10.1.2: the lengths of the twelve kinds from header to check. -/
theorem test_frame_lengths :
    [kindLength 1 0, kindLength 2 0, kindLength 3 0, kindLength 4 0, kindLength 5 0, kindLength 6 0, kindLength 7 0, kindLength 8 0,
      kindLength 9 0, kindLength 10 0, kindLength 11 128, kindLength 12 0, kindLength 13 0] =
      [some 28, some 11, some 7, some 7, some 9, some 10, some 7, some 140, some 135, some 7, some 137, some 7, none] := by decide

/-- Spec/10 section 10.2: status and mailbox of the station, and a directory view entry. -/
theorem test_control_reads :
    station.controlRead 0 0b1111 = { ok := true, data := 0x000B0504 } ∧
      State.reset.controlRead 4 0b1111 = { ok := true, data := 0 } ∧ State.reset.controlRead 5 0b0001 = { ok := true, data := 1 } ∧
      station.controlRead 0x100 0b1111 = { ok := true, data := 0x0000020B } ∧
      station.controlRead 14 0b1111 = { ok := false, data := 0 } := by decide +kernel

/-- The table gives no row any bits, so no word spells a command. -/
theorem test_decode_spells_nothing : decodeTableWord 8 0 = none ∧ station.withFetchWord 8 0 = station := by decide +kernel

/-! ### Witnesses: the step, reset and time -/

theorem witness_StepTakesTheFrontCommand :
    ({ station with pending := [.msTick, .badBurst] } : State).pending = .msTick :: [.badBurst] ∧ State.reset.pending = [] :=
  ⟨rfl, rfl⟩

theorem witness_EveryCommandCompletes :
    (Instr.updateReceived (header 5 127 1) 127 1 [7]).wellFormed = true ∧ (Instr.registerWrite 4 0b0010 0).wellFormed = false := by
  decide

theorem witness_PinResetAndClearing :
    State.reset.port.nrstHigh = false ∧
      ({ State.reset with port := station.port } : State).port.nrstHigh = true ∧ State.reset.ctl.mode = .reset := by decide

theorem witness_TickDrivesEveryTimer : station.port.nrstHigh = true := rfl

/-- A station whose timers run, with 1 tick and 2 ticks to go. -/
def ticking : State :=
  { claiming 42 { claim .normal .asked 1 with answer := .running 1, patience := .running 2, orphanWait := .running 2 }
      ((station.setEntry 0 { owned with tenure := .running 2 }).setServing 127 { ServeEntry.reset with redirect := .running 1 }) with
    pub := { station.pub with refresh := .running 1, scan := .running 2 }
    ctl := { station.ctl with listen := .running 1, leave := .running 2, presence := .running 1 } }

theorem witness_TimersRunOutAtTheirTick :
    ticking.port.nrstHigh = true ∧ ticking.ctl.listen = .running 1 ∧ ticking.ctl.leave = .running 2 ∧
      ticking.ctl.presence = .running 1 ∧ ticking.pub.refresh = .running 1 ∧ ticking.pub.scan = .running 2 ∧
      (ticking.entry 0).tenure = .running 2 ∧ (ticking.serving 127).redirect = .running 1 ∧
      (ticking.peer 5).silence = .running 300 ∧
      ticking.record 42 = some { claim .normal .asked 1 with
        answer := .running 1, patience := .running 2, orphanWait := .running 2 } := by decide +kernel

theorem witness_EventsThatCannotOccurChangeNothing :
    station.port.nrstHigh = true ∧ (State.reset.port.nrstHigh = false ∧ station.ctl.mode ≠ .reset) ∧ ticking.ctl.listen.due = false ∧
      ticking.ctl.leave.due = false ∧ ticking.ctl.presence.due = false ∧ ticking.pub.refresh.due = false ∧
      ticking.pub.scan.due = false ∧ (ticking.entry 0).tenure.due = false ∧
      (∀ c, ticking.record 42 = some c → c.answer.due = false ∧ c.patience.due = false ∧ c.orphanWait.due = false) ∧
      (ticking.serving 127).redirect.due = false ∧ (ticking.peer 5).silence.due = false ∧ station.ctl.backlog = [] ∧
      (∀ f, (flying (deferring .presence none) station).line.flight = some f → f.transmitting = false) ∧
      (∀ f, (flying (sending .presence 1) station).line.flight = some f → f.wait = none) ∧
      State.reset.ctl.mode = .reset ∧ (underCarrier station).line.carrier = true ∧
      (station.line.carrier = false ∧ station.line.burst = .unknown) := by
  refine ⟨by decide, by decide, by decide, by decide, by decide, by decide, by decide, by decide +kernel,
    only witness_TimersRunOutAtTheirTick.2.2.2.2.2.2.2.2.2 (by decide), by decide +kernel, by decide +kernel, by decide,
    only rfl rfl, only rfl rfl, rfl, rfl, rfl, rfl⟩

/-! ### Witnesses: the host port -/

theorem witness_WindowRead :
    State.reset.ctl.mode = .reset ∧ laneGroup 0b0110 = none ∧ windowTarget station.ctl.config 0x1FFF = none ∧
      (station.ctl.mode ≠ .reset ∧ laneGroup 0b1000 = some (3, 1) ∧
        windowTarget station.ctl.config 0x10A1 = some (config.window 2, 45) ∧ (config.window 2).refuseStale = true ∧
        (station.entry 45).replica = .stale) ∧
      (laneGroup 0b1100 = some (2, 2) ∧ windowTarget station.ctl.config 0 = some (config.window 0, 0) ∧
        (config.window 0).refuseStale = false) ∧
      (laneGroup 0b1001 = some (0, 4) ∧ windowTarget station.ctl.config 0x1042 = some (config.window 2, 42) ∧
        (station.entry 42).replica = .valid) := by decide +kernel

theorem witness_WindowWriteToOwned :
    station.ctl.mode = .active ∧ station.pub.barred = false ∧ ImageLaw station ∧ laneGroup 0b1001 = some (0, 4) ∧
      windowTarget station.ctl.config 0xFFF = some (config.window 1, 127) ∧ (config.window 1).writeProtect = false ∧
      (station.entry 127).role = .owner ∧ (station.entry 127).release ≠ .captured ∧
      (0b1001 : BitVec 4).getLsbD (0 : Fin 4) = true ∧ (0b1001 : BitVec 4).getLsbD (3 : Fin 4) = true ∧
      ∀ k : Fin 4, (0b1001 : BitVec 4).getLsbD k = true → 0 ≤ k ∧ k ≤ 3 := by
  unfold ImageLaw
  decide +kernel

/-- A station whose parked write buffer holds n writes of region 42, behind its claim. -/
def parking (n : Nat) : State :=
  { claiming 42 (claim .normal .asked 3) station with
    parked := List.replicate n { region := 42, offset := 0, length := 1, data := 0, lanes := 1 } }

/-- A station whose 8 slots hold claims of regions 50 to 57. -/
def eightClaims : State :=
  [50, 51, 52, 53, 54, 55, 56, 57].foldl (fun s r => claiming r (claim .orphan .asking 0) s) station

theorem witness_WindowWriteParkedOrRefused :
    ((parking 15).ctl.mode = .active ∧ (parking 15).ctl.leaveQueued = false ∧ laneGroup 0b0100 = some (2, 1) ∧
      windowTarget station.ctl.config 0x55F = some (config.window 1, 42) ∧ (config.window 1).writeProtect = false ∧
      (config.window 1).claimOnWrite = true ∧ ((parking 15).entry 42).role.owns = false ∧ (parking 15).parked.length < 16 ∧
      (126 : Offset).val = 4 * ((0x55F : BitVec 13).toNat % 32) + 2 ∧ ((parking 15).liveRecord 42).isSome = true) ∧
    (Claimable station 50 ∧ windowTarget station.ctl.config 1600 = some (config.window 1, 50) ∧
      (station.entry 50).role.owns = false) ∧
    (inMode .listen station).ctl.mode ≠ .active ∧ laneGroup 0b1110 = none ∧ windowTarget station.ctl.config 0x1FFF = none ∧
    (windowTarget station.ctl.config 0x1FF = some (config.window 0, 15) ∧ (config.window 0).writeProtect = true) ∧
    (windowTarget station.ctl.config 640 = some (config.window 1, 20) ∧ (station.entry 20).role = .handing) ∧
    (((station.setEntry 16 { owned with release := .captured }).entry 16).role = .owner ∧
      ((station.setEntry 16 { owned with release := .captured }).entry 16).release = .captured) ∧
    (windowTarget station.ctl.config 0x1100 = some (config.window 3, 127) ∧ (config.window 3).claimOnWrite = false ∧
      ((station.setEntry 127 DirEntry.reset).entry 127).role.owns = false) ∧
    16 ≤ (parking 16).parked.length ∧
    (eightClaims.liveRecord 58 = none ∧ ¬Claimable eightClaims 58 ∧ (eightClaims.entry 58).role.owns = false) := by
  unfold Claimable
  decide +kernel

theorem witness_ConfigurationWrite :
    (configWord 64 = true ∧ configWord 87 = true ∧ (inMode .config station).ctl.mode = .config ∧ laneGroup 0b1000 ≠ none) ∧
      station.ctl.mode ≠ .config ∧ laneGroup 0b0000 = none := by decide

theorem witness_NoticePopAndRegisterWrite :
    (station.ctl.mode ≠ .reset ∧ laneGroup 0b1000 ≠ none) ∧ State.reset.ctl.mode = .reset ∧ laneGroup 0b0111 = none ∧
      (ownRowWord 5 = false ∧ issuesCommand 5 0b1111 = false ∧ ¬((5 : BitVec 13) = 4 ∧ (0b1111 : BitVec 4) = 0b0001)) ∧
      (ownRowWord 4 = false ∧ issuesCommand 4 0b1100 = false ∧ ¬((4 : BitVec 13) = 4 ∧ (0b1100 : BitVec 4) = 0b0001)) := by
  decide

theorem witness_FlagsAndMaskWrites :
    (station.ctl.mode ≠ .reset ∧ laneGroup 0b0001 ≠ none ∧ (0b0001 : BitVec 4).getLsbD 0 = true) ∧
      (laneGroup 0b1100 ≠ none ∧ (0b1100 : BitVec 4).getLsbD 0 = false) ∧ State.reset.ctl.mode = .reset ∧
      laneGroup 0b0110 = none := by decide

theorem witness_CommandsRefused :
    (Mailed (.unknownCommand (some 1) 0x04) 0x04 (some 1) ∧ (0x04 : Byte) ∉ commandCodes) ∧
      (Mailed (.joinCommand none) 0x01 none ∧ station.ctl.mode ≠ .config) ∧
      (Mailed (.leaveCommand none) 0x02 none ∧ (inMode .leaving station).ctl.mode ≠ .active) ∧
      (Mailed (.restartCommand none 31) 0x03 none ∧ (inMode .joining station).ctl.mode = .joining) ∧
      (Mailed (.refreshCommand (some 128)) 0x15 (some 128) ∧ (0x15 : Byte) ∈ [(0x10 : Byte), 0x11, 0x12, 0x13, 0x14, 0x15] ∧
        128 ≤ (commandArgument (some 128) station).toNat ∧ station.ctl.mode = .active) ∧
      State.reset.ctl.mode = .reset :=
  ⟨⟨.unknown _ _ (by decide), by decide⟩, ⟨.join _, by decide⟩, ⟨.leave _, by decide⟩, ⟨.restart _ _, rfl⟩,
    ⟨.refresh _, by decide, by decide, rfl⟩, rfl⟩

/-- The station in CONFIG with the same block. -/
def configuring : State := inMode .config station

/-- The items before the windows with a parameter byte or the own ID set so. -/
def withParam (i : Fin 8) (b : Byte) : ConfigBlock := { config with params := put config.params i b }

theorem witness_JoinCommand :
    configuring.ctl.mode = .config ∧ (∀ i, ¬ItemFails configuring.ctl.ownId configuring.ctl.config i) ∧
      ItemFails 0 config 0 ∧ ItemFails 11 (withParam 0 1) 1 ∧ ItemFails 11 (withParam 1 8) 2 ∧ ItemFails 11 (withParam 1 1) 2 ∧
      ItemFails 11 (withParam 2 4) 3 ∧ ItemFails 11 (withParam 3 0) 4 ∧ ItemFails 11 (withParam 4 9) 5 ∧
      ItemFails 11 { config with windows := put windows 2 0 } 8 ∧ ItemFails 11 { config with windows := put windows 14 128 } 11 ∧
      (∀ j, j < 11 → ¬ItemFails 11 { config with windows := put windows 14 128 } j) := by
  unfold ItemFails
  refine ⟨by decide, ?_, by decide, by decide, by decide, by decide, by decide, by decide, by decide, ?_, ?_, ?_⟩
  · have hw : ∀ w : Fin 8, ¬((configuring.ctl.config.window w).enabled = true ∧
        ((configuring.ctl.config.window w).size = 0 ∨
          128 < (configuring.ctl.config.window w).imageStart + (configuring.ctl.config.window w).size ∨
          256 < (configuring.ctl.config.window w).hostBase + (configuring.ctl.config.window w).size)) := by decide +kernel
    rintro i (⟨_, h⟩ | ⟨_, h⟩ | ⟨_, h⟩ | ⟨_, h⟩ | ⟨_, h⟩ | ⟨_, h⟩ | ⟨w, _, h⟩)
    · exact absurd h (by decide)
    · exact absurd h (by decide)
    · exact absurd h (by decide)
    · exact absurd h (by decide)
    · exact absurd h (by decide)
    · exact absurd h (by decide)
    · exact hw w h
  · decide +kernel
  · decide +kernel
  · decide +kernel

/-- The station with a claimant of region 16, a HANDOVER of region 0 waiting, and claims in ASKED and ASKING. -/
def leaver : State :=
  claiming 50 (claim .orphan .asking 1) (claiming 42 (claim .normal .asked 2)
    (queued 16 [5] (station.setServing 0 { ServeEntry.reset with handover := .queued })))

/-- A station that owns nothing. -/
def idle : State := { station with dir := State.reset.dir }

theorem witness_LeaveCommand :
    (leaver.ctl.mode = .active ∧ leaver.ctl.leaveQueued = false) ∧
      (Servable (inMode .leaving leaver) 16 ∧ Releasable (inMode .leaving leaver) 127 ∧
        leaver.liveRecord 42 = some (claim .normal .asked 2)) ∧
      (idle.ctl.mode = .active ∧ idle.ctl.leaveQueued = false) := by decide +kernel

theorem witness_RestartCommand :
    configuring.ctl.mode = .config ∧ (inMode .offline station).ctl.mode = .offline ∧
      (inMode .isolated station).ctl.mode = .isolated := by decide

theorem witness_ClaimAndWithdrawCommands :
    (station.ctl.mode = .active ∧ station.ctl.leaveQueued = false ∧ (commandArgument (some 127) station).toNat = (127 : Region).val) ∧
      ((station.entry 127).role.owns = true ∧ (parking 0).liveRecord 42 = some (claim .normal .asked 3)) ∧
      (Claimable station 0 → False) ∧ Claimable station 50 ∧
      ((eightClaims.entry 58).role.owns = false ∧ eightClaims.liveRecord 58 = none ∧ ¬Claimable eightClaims 58) ∧
      station.liveRecord 50 = none := by
  unfold Claimable
  decide +kernel

theorem witness_ReleaseCommand :
    (station.ctl.mode = .active ∧ station.ctl.leaveQueued = false ∧ (commandArgument (some 0) station).toNat = (0 : Region).val) ∧
      (station.entry 20).role ≠ .owner ∧
      ((leaver.entry 16).role = .owner ∧ (leaver.serving 16).handover = .idle ∧ (leaver.entry 16).release = .idle ∧
        leaver.claimants 16 ≠ []) ∧
      ((station.entry 127).role = .owner ∧ (station.serving 127).handover = .idle ∧ (station.entry 127).release = .idle ∧
        station.claimants 127 = []) ∧
      ((leaver.entry 0).role = .owner ∧ (leaver.serving 0).handover ≠ .idle) := by decide +kernel

theorem witness_HoldUnholdRefresh :
    (station.ctl.mode = .active ∧ (commandArgument none station).toNat = (0 : Region).val ∧ station.ctl.leaveQueued = false ∧
      station.pub.barred = false) ∧
      (leaver.claimants 16 ≠ [] ∧ (leaver.serving 16).handover = .idle ∧ (leaver.entry 16).release = .idle ∧
        (leaver.entry 16).tenure = .stopped ∧ (leaver.entry 16).role = .owner) ∧
      (station.claimants 127 = [] ∧ (station.entry 127).role = .owner) ∧ (station.entry 42).role ≠ .owner := by decide +kernel

/-- The station in LEAVING before its LEAVE frame is queued. -/
def leaving (s : State) : State := inMode .leaving s

theorem witness_RegionsAndLeavingGoOn :
    station.ctl.leaveQueued = false ∧ Servable leaver 16 ∧ Servable (leaving leaver) 16 ∧ Releasable (leaving station) 127 ∧
      (¬Servable station 42 ∧ ¬Releasable station 42) ∧
      ((leaving idle).ctl.mode = .leaving ∧ WorkDone (leaving idle)) ∧ station.ctl.mode ≠ .leaving ∧
      ¬WorkDone (leaving station) := by
  unfold Servable Releasable WorkDone
  decide +kernel

/-! ### Witnesses: the line -/

/-- A LEAVE frame of station 11 that waits for its carrier, and one entry of the publish set. -/
def publishing (n : Nat) (s : State) : State := { queueOf n s with pub := { s.pub with set := put s.pub.set 127 (some ⟨0, 127, false⟩) } }

theorem witness_CarrierAndIdle :
    (station.ctl.mode ≠ .reset ∧ station.line.carrier = false) ∧ (flying (sending .presence 1) station).ctl.mode ≠ .reset ∧
      (underCarrier station).line.carrier = true ∧
      ({ station with line := { station.line with carrier := true, burst := .good 31 } } : State).line.burst = .good 31 ∧
      (0 : BitVec 5).toNat = ((31 : Byte).toNat + 1) % 32 ∧
      ({ station with line := { station.line with burst := .bad, rotation := 31 } } : State).line.burst ≠ .unknown ∧
      (∀ source, Burst.bad ≠ .good source) ∧ (0 : BitVec 5).toNat = ((31 : BitVec 5).toNat + 1) % 32 :=
  ⟨by decide, by decide, rfl, rfl, by decide, by decide, fun _ h => (by cases h), by decide⟩

theorem witness_DeferralWaits :
    (1 ≤ 16 ∧ 16 ≤ 16 ∧ (12 : Station) ≠ 11) ∧ isUpdate .presence = false ∧ isUpdate (.update 127) = true ∧
      (0 : BitVec 5).toNat = ((31 : Station).val + 1) % 32 := by decide

theorem witness_SchedulerOrder :
    (station.ctl.mode.transmits = true ∧ station.line.flight = none ∧ station.line.carrier = false) ∧
      ((∀ r, ¬Offered station r) ∧ station.ctl.presenceDue = false ∧ station.line.queue = []) ∧
      (Offered (publishing 0 station) 127 ∧ (publishing 0 station).line.queue = [] ∧ (publishing 0 station).line.controlRun ≠ 4) ∧
      ((publishing 1 station).line.queue = { frame := .join, fallen := false } :: []) ∧
      (Offered { publishing 1 station with line := { (publishing 1 station).line with controlRun := 4 } } 127) ∧
      ({ station with ctl := { station.ctl with presenceDue := true } } : State).ctl.presenceDue = true ∧
      (inMode .listen station).ctl.mode.transmits = false := by
  refine ⟨by decide, ⟨?_, rfl, rfl⟩, ⟨?_, rfl, by decide⟩, rfl, ?_, rfl, by decide⟩ <;> unfold Offered <;> decide +kernel

theorem witness_UpdateCapture :
    station.ctl.mode.transmits = true ∧ Offered (publishing 0 station) 127 ∧
      (publishing 0 station).pubEntry 127 = some ⟨0, 127, false⟩ ∧ (0 : Offset) ≤ 127 ∧
      (publishing 0 station).line.queue = [] ∧ (publishing 0 station).line.flight = none ∧
      (publishing 0 station).ctl.presenceDue = false := by
  unfold Offered
  decide +kernel

/-- The deferral wait of a frame in flight ends at any such state. -/
theorem waitEnds (j : Job) (x : Option Frame) {s : State} (hc : s.line.carrier = false) (hm : s.ctl.mode.transmits = true) :
    WaitEnds (flying (deferring j x) s) (deferring j x) :=
  { flight := rfl, waiting := rfl, silent := rfl, idle := hc, mode := hm }

/-- So it does for a frame that no longer stands. -/
theorem waitEndsFallen (j : Job) {s : State} (hc : s.line.carrier = false) (hm : s.ctl.mode.transmits = true) :
    WaitEnds (flying (fell (deferring j none)) s) (fell (deferring j none)) :=
  { flight := rfl, waiting := rfl, silent := rfl, idle := hc, mode := hm }

/-- The attempt of a frame in flight is under way at any such state. -/
theorem isSending (j : Job) (n : Nat) (s : State) : Sending (flying (sending j n) s) (sending j n) :=
  { flight := rfl, transmitting := rfl }

/-- A claim in TAKING for region 50, and one in ASKING for region 42. -/
def taker : State := claiming 50 (claim .orphan .taking 1) (claiming 42 (claim .normal .asking 0) station)

theorem witness_FirstAttempts :
    (∀ j, WaitEnds (flying (deferring j none) taker) (deferring j none) ∧ (deferring j none).frame = none) ∧ 4 < 256 ∧
      (taker.liveRecord 42 = some (claim .normal .asking 0) ∧ (deferring .presence none).fallen = false) ∧
      (∀ c, taker.liveRecord 50 = some c → c.state ≠ .asking) ∧
      ((taker.entry 42).role.owns = false ∧ (taker.entry 127).role.owns = true) ∧
      ((taker.setEntry 46 { ofPeer 5 with replica := .stale, repair := true }).entry 46).repair = true ∧
      (taker.entry 42).repair = false ∧
      ((taker.entry 50).role = .orphan ∧ taker.liveRecord 50 = some (claim .orphan .taking 1)) ∧
      (taker.entry 42).role ≠ .orphan :=
  have h : taker.liveRecord 50 = some (claim .orphan .taking 1) := by decide +kernel
  ⟨fun j => ⟨waitEnds j none rfl rfl, rfl⟩, by decide, by decide +kernel, only h (by decide), by decide +kernel,
    by decide +kernel, by decide +kernel, ⟨by decide +kernel, h⟩, by decide +kernel⟩

/-- Region 16 forced out with no claimant. -/
def forced : State := station.setServing 16 { ServeEntry.reset with forced := true, handover := .queued }

theorem witness_HandoverCapture :
    (∀ s, s.line.carrier = false → s.ctl.mode.transmits = true →
      WaitEnds (flying (deferring (.control (.handover 16)) none) s) (deferring (.control (.handover 16)) none) ∧
      WaitEnds (flying (fell (deferring (.control (.handover 16)) none)) s) (fell (deferring (.control (.handover 16)) none))) ∧
      (∀ s ∈ [station, forced, leaver, queued 16 [5, 20, 3, 7] station, queued 16 [31] station],
        s.line.carrier = false ∧ s.ctl.mode.transmits = true) ∧
      (station.entry 20).role ≠ .owner ∧
      ((forced.entry 16).role = .owner ∧ forced.claimants 16 = [] ∧ (forced.entry 16).release = .idle ∧
        (forced.serving 16).forced = true ∧ forced.ctl.leaveQueued = false) ∧
      (((forced.setEntry 16 { owned with release := .queued }).entry 16).role = .owner ∧
        ((forced.setEntry 16 { owned with release := .queued }).entry 16).release ≠ .idle) ∧
      ((station.entry 16).role = .owner ∧ station.claimants 16 = [] ∧ (station.entry 16).release = .idle ∧
        (station.serving 16).forced = false) ∧
      ((queued 16 [5, 20, 3, 7] station).claimants 16 = 5 :: [20, 3, 7] ∧
        ((queued 16 [5, 20, 3, 7] station).peer 5).state = .present ∧ (station.entry 16).held = false ∧
        (station.entry 16).tenure = .stopped) ∧
      ((queued 16 [31] station).claimants 16 = 31 :: [] ∧ ((queued 16 [31] station).peer 31).state ≠ .present) ∧
      (((station.setEntry 16 { owned with held := true }).entry 16).held = true ∧ station.ctl.mode ≠ .leaving ∧
        ((station.setEntry 16 { owned with held := true }).serving 16).forced = false) :=
  ⟨fun _ hc hm => ⟨waitEnds _ none hc hm, waitEndsFallen _ hc hm⟩, by decide +kernel⟩

theorem witness_ReleaseCapture :
    (∀ s, s.line.carrier = false → s.ctl.mode.transmits = true →
      WaitEnds (flying (deferring (.control (.release 127)) none) s) (deferring (.control (.release 127)) none) ∧
      WaitEnds (flying (fell (deferring (.control (.release 127)) none)) s) (fell (deferring (.control (.release 127)) none))) ∧
      (station.entry 42).role ≠ .owner ∧ ((leaver.entry 16).role = .owner ∧ leaver.claimants 16 ≠ []) ∧
      ((publishing 0 station).claimants 127 = [] ∧ ((publishing 0 station).pubEntry 127).isSome = true ∧
        ((publishing 0 station).entry 127).role = .owner) ∧
      (station.claimants 127 = [] ∧ station.pubEntry 127 = none ∧ (station.entry 127).role = .owner) :=
  ⟨fun _ hc hm => ⟨waitEnds _ none hc hm, waitEndsFallen _ hc hm⟩, by decide +kernel, by decide +kernel, by decide +kernel,
    by decide +kernel⟩

/-- Region 20 captured toward station 5 with station 20 behind it. -/
def handing : State := station.setServing 20 { ServeEntry.reset with handover := .captured 5 [5, 20] }

theorem witness_LaterAttempts :
    (∀ j, WaitEnds (flying (deferring j (some anyFrame)) taker) (deferring j (some anyFrame)) ∧
      (deferring j (some anyFrame)).frame = some anyFrame ∧ (deferring j (some anyFrame)).fallen = false) ∧
      ((taker.entry 0).role = .owner ∧ (taker.entry 42).role ≠ .owner) ∧
      (taker.liveRecord 42 = some (claim .normal .asking 0)) ∧
      (∀ c, taker.liveRecord 50 = some c → c.kind = .orphan ∧ c.state ≠ .asking) ∧
      ((taker.entry 50).role = .orphan ∧ taker.liveRecord 50 = some (claim .orphan .taking 1)) ∧
      (∀ c, taker.liveRecord 42 = some c → c.kind = .normal ∨ c.state ≠ .taking) ∧
      ((handing.serving 20).handover = .captured 5 [5, 20] ∧ (handing.peer 5).state = .present) ∧
      (((handing.setPeer 5 RosterEntry.reset).peer 5).state ≠ .present ∧ (handing.entry 20).role = .handing) :=
  have h : taker.liveRecord 50 = some (claim .orphan .taking 1) := by decide +kernel
  have g : taker.liveRecord 42 = some (claim .normal .asking 0) := by decide +kernel
  ⟨fun j => ⟨waitEnds j _ rfl rfl, rfl, rfl⟩, by decide +kernel, g, only h (by decide), ⟨by decide +kernel, h⟩,
    only g (by decide), by decide +kernel, by decide +kernel⟩

theorem witness_FramesCarried :
    (∀ j, Sending (flying (sending j 1) station) (sending j 1) ∧ (sending j 1).frame = some anyFrame ∧ (sending j 1).fallen = false) ∧
      (station.entry 127).role = .owner ∧ (station.entry 42).role ≠ .owner :=
  ⟨fun j => ⟨isSending j 1 station, rfl, rfl⟩, by decide +kernel, by decide +kernel⟩

theorem witness_OwnershipGivenAway :
    (∀ j, Sending (flying (sending j 16) handing) (sending j 16) ∧ (sending j 16).frame = some anyFrame ∧
      (sending j 16).fallen = false) ∧
      (handing.serving 20).handover = .captured 5 [5, 20] ∧ (handing.entry 0).role = .owner ∧ (handing.entry 42).role ≠ .owner :=
  ⟨fun j => ⟨isSending j 16 handing, rfl, rfl⟩, by decide +kernel, by decide +kernel, by decide +kernel⟩

theorem witness_TakeCarried :
    (∀ s, Sending (flying (sending (.control (.take 50)) 1) s) (sending (.control (.take 50)) 1)) ∧
      (ImageLaw station ∧ station.liveRecord 50 = none ∧ station.parkedFor 50 = []) ∧
      ((parking 2).liveRecord 42 = some (claim .normal .asked 3) ∧ (∀ w, w ∈ (parking 2).parkedFor 42 → w.lanes ≠ 0)) ∧
      (ImageLaw taker ∧ taker.liveRecord 50 = some (claim .orphan .taking 1)) := by
  unfold ImageLaw
  exact ⟨isSending _ 1, by decide +kernel, by decide +kernel, by decide +kernel⟩

theorem witness_JoinAndLeaveCarried :
    (∀ j s, Sending (flying (sending j 16) s) (sending j 16)) ∧
      ((inMode .joining station).ctl.mode = .joining ∧ station.ctl.leaveQueued = false) ∧ (leaving station).ctl.mode = .leaving ∧
      Servable leaver 16 ∧ (∀ r, ¬Servable idle r) := by
  refine ⟨fun j => isSending j 16, by decide, by decide, ?_, ?_⟩ <;> unfold Servable <;> decide +kernel

theorem witness_ClaimCarried :
    (∀ s, Sending (flying (sending (.control (.claim 42)) 1) s) (sending (.control (.claim 42)) 1) ∧
      (sending (.control (.claim 42)) 1).fallen = false) ∧
      station.liveRecord 42 = none ∧ taker.liveRecord 42 = some (claim .normal .asking 0) ∧
      eightClaims.liveRecord 50 = some (claim .orphan .asking 0) ∧ taker.liveRecord 50 = some (claim .orphan .taking 1) :=
  ⟨fun s => ⟨isSending _ 1 s, rfl⟩, by decide +kernel, by decide +kernel, by decide +kernel, by decide +kernel⟩

/-- Claims with two CLAIMs behind them: region 46 of a station that is not PRESENT, 42 of one that is, and the orphan 50. -/
def exhausting : State :=
  claiming 46 (claim .normal .asking 2) (claiming 42 (claim .normal .asking 2) (claiming 50 (claim .orphan .asking 2)
    (station.setEntry 46 (ofPeer 3))))

/-- The station in LEAVING with its LEAVE frame queued and one region captured. -/
def departing : State :=
  { leaving handing with
    ctl := { (leaving handing).ctl with leaveQueued := true }
    pub := { station.pub with barred := true }
    line := { station.line with queue := [{ frame := .leave, fallen := false }] } }

theorem witness_ClaimDropped :
    (∀ r s, Sending (flying (sending (.control (.claim r)) 16) s) (sending (.control (.claim r)) 16) ∧
      16 ≤ (sending (.control (.claim r)) 16).attempt) ∧
      exhausting.line.consecutive < 3 ∧ station.liveRecord 42 = none ∧
      (departing.line.consecutive < 3 ∧ departing.ctl.leaveQueued = true ∧ departing.liveRecord 42 = none) ∧
      (claiming 42 (claim .normal .asked 1) station).liveRecord 42 = some (claim .normal .asked 1) ∧
      taker.liveRecord 50 = some (claim .orphan .taking 1) ∧
      (taker.liveRecord 42 = some (claim .normal .asking 0) ∧ min 3 (0 + 1) < 3) ∧
      (exhausting.liveRecord 46 = some (claim .normal .asking 2) ∧ min 3 (2 + 1) = 3 ∧
        ∀ p, (exhausting.entry 46).owner = some p → (exhausting.peer p).state ≠ .present) ∧
      (exhausting.liveRecord 50 = some (claim .orphan .asking 2)) ∧
      (exhausting.liveRecord 42 = some (claim .normal .asking 2) ∧ (exhausting.entry 42).owner = some 5 ∧
        (exhausting.peer 5).state = .present) :=
  ⟨fun _ s => ⟨isSending _ 16 s, Nat.le_refl 16⟩, by decide +kernel, by decide +kernel, by decide +kernel, by decide +kernel,
    by decide +kernel, by decide +kernel, by decide +kernel, by decide +kernel, by decide +kernel⟩

theorem witness_CollisionAndDrop :
    (∀ j s, Sending (flying (sending j 15) s) (sending j 15) ∧ (sending j 15).attempt < 16) ∧
      (∀ j s, Sending (flying (sending j 16) s) (sending j 16) ∧ 16 ≤ (sending j 16).attempt ∧ (sending j 16).fallen = false) ∧
      station.line.consecutive < 3 ∧ ((handing.serving 20).handover = .captured 5 [5, 20] ∧ (handing.entry 20).role = .handing) ∧
      taker.liveRecord 50 = some (claim .orphan .taking 1) ∧ (∀ c, taker.liveRecord 42 = some c → c.state ≠ .taking) ∧
      leaver.claimants 16 ≠ [] ∧
      (station.claimants 127 = [] ∧ (station.entry 127).role = .owner ∧ (station.serving 127).handover = .idle ∧
        station.ctl.leaveQueued = false) ∧
      (departing.claimants 127 = [] ∧ (departing.entry 127).role = .owner ∧ (departing.serving 127).handover = .idle ∧
        departing.ctl.leaveQueued = true ∧ departing.line.consecutive < 3) ∧
      (station.claimants 42 = [] ∧ (station.entry 42).role ≠ .owner) ∧
      (leaver.claimants 0 = [] ∧ (leaver.serving 0).handover ≠ .idle) ∧
      (∀ j s, Sending (flying (fell (sending j 16)) s) (fell (sending j 16)) ∧ 16 ≤ (fell (sending j 16)).attempt ∧
        (fell (sending j 16)).fallen = true) ∧
      (leaving station).ctl.mode = .leaving :=
  have g : taker.liveRecord 42 = some (claim .normal .asking 0) := by decide +kernel
  ⟨fun j s => ⟨isSending j 15 s, Nat.lt_add_one 15⟩, fun j s => ⟨isSending j 16 s, Nat.le_refl 16, rfl⟩, by decide, by decide +kernel,
    by decide +kernel, only g (by decide), by decide +kernel, by decide +kernel, by decide +kernel, by decide +kernel,
    by decide +kernel, fun _ _ => ⟨{ flight := rfl, transmitting := rfl }, Nat.le_refl 16, rfl⟩, by decide⟩

/-- Three drops in a row behind it. -/
def thirdDrop (s : State) : State := { s with line := { s.line with consecutive := 3 } }

theorem witness_FourthDropIsolates :
    (∀ j s, Sending (flying (sending j 16) s) (sending j 16) ∧ 16 ≤ (sending j 16).attempt ∧ (sending j 16).fallen = false) ∧
      ((sending (.control .join) 16).job = .control .join ∧ (inMode .joining station).ctl.mode = .joining) ∧
      (3 ≤ (thirdDrop station).line.consecutive ∧ (thirdDrop station).ctl.mode.transmits = true) ∧
      ((thirdDrop exhausting).liveRecord 42 = some (claim .normal .asking 2) ∧ ((thirdDrop exhausting).entry 42).owner = some 5 ∧
        ((thirdDrop exhausting).peer 5).state = .present) ∧
      ((thirdDrop exhausting).liveRecord 46 = some (claim .normal .asking 2) ∧
        ∀ p, ((thirdDrop exhausting).entry 46).owner = some p → ((thirdDrop exhausting).peer p).state ≠ .present) :=
  ⟨fun j s => ⟨isSending j 16 s, Nat.le_refl 16, rfl⟩, ⟨rfl, rfl⟩, by decide, by decide +kernel, by decide +kernel⟩

/-! ### Witnesses: received bursts -/

/-- The station hears station 5. -/
theorem hearsFive (s : State) (b : Byte) (q : Half) (h : s.ctl.mode.receives = true ∧ s.transmitting = false ∧ 5 ≠ s.ctl.ownId ∧
    (s.peer 5).state ≠ .incompatible) : Heard s (header 5 b q) 5 :=
  { receives := h.1, silent := h.2.1, major := rfl, source := rfl, other := h.2.2.1, compatible := h.2.2.2 }

theorem witness_BurstsAndClashes :
    ((0 : Byte) = 0 ∧ 32 ≤ (32 : Byte).toNat) ∧ (State.reset.ctl.mode = .reset ∧ (flying (sending .presence 1) station).transmitting = true) ∧
      (configuring.ctl.mode = .config ∧ configuring.transmitting = false) ∧
      (station.ctl.mode.receives = true ∧ station.transmitting = false) ∧ (inMode .listen station).ctl.mode = .listen ∧
      (leaving station).ctl.mode = .leaving ∧ Carries (.claimReceived { header 5 0 0 with major := 3 }) { header 5 0 0 with major := 3 } ∧
      (stationOf 5 = some 5 ∧ (5 : Station) ≠ station.ctl.ownId ∧ ({ header 5 0 0 with major := 3 } : Header).major ≠ 2) ∧
      (stationOf 31 = some 31 ∧ (station.peer 31).state = .incompatible) ∧
      Carries (.unknownKindFrame 15 (header 5 0 0)) (header 5 0 0) ∧
      (Framed (.leaveReceived (header 11 0xFF 0)) (header 11 0xFF 0) ∧ Framed (.claimReceived (header 5 0 0)) (header 5 0 0)) :=
  ⟨by decide, ⟨rfl, rfl⟩, ⟨rfl, by decide⟩, by decide, rfl, rfl, .claim _, by decide, by decide +kernel, .unknown _ _ (by decide),
    .leave _, .other _ _ (.claim _)⟩

/-- The default profile. -/
def profile : Profile := { minor := 1, presence := 10, refresh := 10, homeCount := 0 }

theorem witness_PeersAnnounced :
    (station.ctl.mode.receives = true ∧ station.transmitting = false ∧ stationOf (header 31 0xFF 0).source = some 31 ∧
      (31 : Station) ≠ station.ctl.ownId) ∧
      ((header 5 0xFF 0).major = 2 ∧ ((announcedBy (header 5 0xFF 0) 5 profile .active false station).peer 5).state ≠ .incompatible) ∧
      ((announcedBy (header 31 0xFF 0) 31 profile .active false station).peer 31).state = .incompatible ∧
      (((announcedBy (header 1 0xFF 0) 1 profile .active true station).peer 1).state = .present ∧ station.ctl.mode = .active) ∧
      (inMode .listen station).ctl.mode = .listen := by decide +kernel

theorem witness_OwnedListTaken : (5 : Station) ≠ station.ctl.ownId ∧ (31 : Station) ≠ station.ctl.ownId := by decide

theorem witness_PeersLost :
    ((station.setPeer 5 { present with silence := .running 0 }).peer 5).silence.due = true ∧
      (station.ctl.mode.receives = true ∧ station.transmitting = false ∧ stationOf (header 5 0xFF 0).source = some 5 ∧
        (5 : Station) ≠ station.ctl.ownId) ∧
      (station.peer 31).state ≠ .absent ∧ (station.peer 1).state = .absent := by decide +kernel

theorem witness_ClaimReceived :
    (Heard station (header 5 127 0) 5 ∧ regionOf (header 5 127 0).region = some 127) ∧
      ((leaver.entry 16).role.owns = true ∧ (leaver.claimants 16)[0]? = some 5) ∧
      (5 ∉ (queued 127 [20, 3, 7] station).claimants 127 ∧ ((queued 127 [20, 3, 7] station).claimants 127).length < 4) ∧
      (5 ∉ (queued 127 [20, 3, 7, 9] station).claimants 127 ∧ ¬((queued 127 [20, 3, 7, 9] station).claimants 127).length < 4) ∧
      ((leaving station).ctl.mode = .leaving ∧ (leaving station).ctl.leaveQueued = false ∧ 5 ∉ station.claimants 20) ∧
      ({ leaving station with ctl := { (leaving station).ctl with leaveQueued := true } } : State).ctl.leaveQueued = true ∧
      (5 ∈ (queued 20 [5] (leaving handing)).claimants 20 ∧ ((queued 20 [5] (leaving handing)).serving 20).handover ≠ .idle) ∧
      ((leaver.entry 16).role.owns = true ∧ 5 ∈ (inMode .listen leaver).claimants 16) ∧
      ((leaving handing).serving 20).handover ≠ .idle ∧ ((leaving station).serving 127).handover = .idle ∧
      (inMode .joining station).ctl.mode = .joining ∧
      ((station.entry 42).role.owns = false ∧ station.liveRecord 42 = none) ∧
      ((taker.entry 42).role.owns = false ∧ taker.liveRecord 42 = some (claim .normal .asking 0)) ∧
      ((taker.entry 50).role.owns = false ∧ taker.liveRecord 50 = some (claim .orphan .taking 1)) ∧
      ((eightClaims.entry 50).role.owns = false ∧ eightClaims.liveRecord 50 = some (claim .orphan .asking 0)) := by
  refine ⟨⟨hearsFive _ _ _ (by decide +kernel), rfl⟩, ?_⟩
  decide +kernel

theorem witness_WaitReceived :
    (Heard taker (header 5 42 0) 5 ∧ regionOf (header 5 42 0).region = some 42) ∧
      stationOf 12 ≠ some taker.ctl.ownId ∧ stationOf 11 = some taker.ctl.ownId ∧
      taker.liveRecord 42 = some (claim .normal .asking 0) ∧ eightClaims.liveRecord 50 = some (claim .orphan .asking 0) ∧
      taker.liveRecord 50 = some (claim .orphan .taking 1) ∧
      (State.closing { claiming 42 (claim .normal .queued 1) station with line := { station.line with marks := [.withdraw 42 false] } }
        42 = true) ∧
      (station.liveRecord 0 = none ∧ (station.entry 0).role.owns = true) ∧
      (station.record 42 = none ∧ (station.entry 42).role.owns = false) := by
  refine ⟨⟨hearsFive _ _ _ (by decide +kernel), rfl⟩, ?_⟩
  decide +kernel

/-- Claims of region 42 with records in the states that a REFUSE tells apart. -/
def refusable (k : ClaimKind) (st : ClaimState) (n : Nat) (q : Option Station) : State :=
  claiming 42 { claim k st n with queuedAt := q } station

theorem witness_RefuseReceived :
    (∀ k st n q, Heard (refusable k st n q) (header 5 42 0) 5) ∧ regionOf (header 5 42 0).region = some 42 ∧
      stationOf 11 = some station.ctl.ownId ∧ station.ctl.leaveQueued = false ∧
      (∀ k ∈ [ClaimKind.normal, .orphan], ∀ st ∈ [ClaimState.asking, .asked, .queued, .taking], ∀ n ∈ [2, 3], ∀ q ∈ [some 5, some 20],
        (refusable k st n q).liveRecord 42 = some { claim k st n with queuedAt := q }) ∧
      (some 20 : Option Station) ≠ some 5 ∧ (((refusable .normal .queued 2 (some 20)).setEntry 42 (ofPeer 20)).entry 42).owner ≠ some 5 ∧
      (stationOf 20 = some 20 ∧ 20 ≠ station.ctl.ownId ∧ (20 : Station) ≠ 5 ∧ (station.peer 20).state = .present) ∧
      stationOf 0 = none ∧ station.liveRecord 42 = none ∧ stationOf 12 ≠ some station.ctl.ownId ∧ 4 ≤ (4 : Byte).toNat ∧
      4 ≤ (255 : Byte).toNat := by
  refine ⟨fun k st n q => hearsFive _ _ _ ⟨rfl, rfl, ?_, ?_⟩, rfl, by decide, rfl, ?_, by decide, by decide +kernel,
    by decide +kernel, by decide, by decide +kernel, by decide, by decide, by decide⟩
  · show (5 : Station) ≠ station.ctl.ownId
    decide
  · show (station.peer 5).state ≠ .incompatible
    decide +kernel
  · decide +kernel

theorem witness_WithdrawAndRepairReceived :
    (Heard leaver (header 5 16 0) 5 ∧ regionOf (header 5 16 0).region = some 16 ∧ (leaver.entry 16).role = .owner) ∧
      ((leaver.entry 42).role.owns = false ∧ (leaver.entry 20).role ≠ .owner) ∧
      (Heard leaver (header 5 128 0) 5 ∧ regionOf (header 5 128 0).region = none ∧
        Carries (.repairReceived (header 5 128 0)) (header 5 128 0)) :=
  ⟨⟨hearsFive _ _ _ (by decide +kernel), rfl, by decide +kernel⟩, by decide +kernel,
    ⟨hearsFive _ _ _ (by decide +kernel), rfl, .repair _⟩⟩

theorem witness_HandoverGained :
    (Heard (parking 1) (header 5 42 1) 5 ∧ regionOf (header 5 42 1).region = some 42) ∧
      (stationOf 32 = none ∧ stationOf 5 = some 5 ∧ 3 < (4 : Byte).toNat) ∧
      (stationOf 11 = some (parking 1).ctl.ownId ∧ (3 : Byte).toNat ≤ 3) ∧
      ((station.entry 127).role.owns = true ∧ newer 32767 (station.entry 127).lastSeq = true ∧
        newer 32768 (station.entry 127).lastSeq = false) ∧
      (((parking 1).entry 42).role.owns = false ∧ ImageLaw (parking 1) ∧ (∀ w, w ∈ (parking 1).parkedFor 42 → w.lanes ≠ 0) ∧
        (parking 1).liveRecord 42 = some (claim .normal .asked 3) ∧ station.liveRecord 42 = none) ∧
      ((station.peer 3).state ≠ .present ∧ 5 ∈ leaver.claimants 16 ∧ (20 : Station) ≠ station.ctl.ownId ∧
        (station.peer 20).state = .present ∧ 20 ∉ station.claimants 42 ∧ station.claims.table.length < 16) ∧
      (16 ≤ (queued 0 (List.replicate 16 5) station).claims.table.length ∧ station.ctl.mode = .active ∧
        20 ∉ (queued 0 (List.replicate 16 5) station).claimants 42) ∧
      ((inMode .joining (queued 0 (List.replicate 16 5) station)).ctl.mode = .joining ∧
        (leaving (queued 0 (List.replicate 16 5) station)).ctl.mode = .leaving) := by
  unfold ImageLaw
  refine ⟨⟨hearsFive _ _ _ (by decide +kernel), rfl⟩, ?_⟩
  decide +kernel

theorem witness_OwnersFollowed :
    (Heard station (header 5 42 1) 5 ∧ regionOf (header 5 42 1).region = some 42 ∧ ImageLaw station) ∧
      ((station.entry 42).role.owns = false ∧ stationOf 20 = some 20 ∧ (20 : Station) ≠ 5 ∧ 20 ≠ station.ctl.ownId ∧
        (3 : Byte).toNat ≤ 3) ∧
      ((station.entry 42).owner = some 5 ∧ newer 1 (station.entry 42).lastSeq = true ∧ newer 0 (station.entry 42).lastSeq = false) ∧
      (station.entry 42).owner ≠ some 20 ∧ (station.entry 42).role = .peer ∧ (station.entry 50).role ≠ .peer := by
  unfold ImageLaw
  refine ⟨⟨hearsFive _ _ _ (by decide +kernel), rfl, ?_⟩, ?_⟩ <;> decide +kernel

theorem witness_UpdatesTaken :
    (Heard station (header 5 42 1) 5 ∧ regionOf (header 5 42 1).region = some 42 ∧ (station.entry 42).role.owns = false ∧
      ImageLaw station) ∧
      (([] : List Byte).length = (0 : Byte).toNat ∧ 128 < (127 : Byte).toNat + (2 : Byte).toNat) ∧
      ([(7 : Byte)].length = (1 : Byte).toNat ∧ (1 : Byte) ≠ 0 ∧ (127 : Byte).toNat + (1 : Byte).toNat ≤ 128) ∧
      ((List.replicate 128 (7 : Byte)).length = (128 : Byte).toNat ∧ (0 : Byte).toNat + (128 : Byte).toNat ≤ 128) ∧
      ((station.entry 42).owner = some 5 ∧ (station.entry 50).owner ≠ some 5) ∧
      [(0 : Half), 1, 2, 32767, 32768].map (fun q => classify q (station.entry 42).lastSeq) =
        [.same, .next, .gap, .gap, .older] := by
  unfold ImageLaw
  refine ⟨⟨hearsFive _ _ _ (by decide +kernel), rfl, ?_⟩, ?_⟩ <;> decide +kernel

theorem witness_ConflictsSettled :
    (Heard station (header 5 20 1) 5 ∧ regionOf (header 5 20 1).region = some 20 ∧ (station.entry 20).role.owns = true) ∧
      ((5 : Station) < station.ctl.ownId ∧ station.ctl.ownId < 20) ∧
      ([(7 : Byte)].length = (1 : Byte).toNat ∧ (1 : Byte) ≠ 0 ∧ (127 : Byte).toNat + (1 : Byte).toNat ≤ 128) ∧
      (stationOf 20 = some 20 ∧ (20 : Station) ≠ 5 ∧ 20 ≠ station.ctl.ownId ∧ (3 : Byte).toNat ≤ 3) := by
  refine ⟨⟨hearsFive _ _ _ (by decide +kernel), rfl, ?_⟩, ?_⟩ <;> decide +kernel

/-! ### Witnesses: timers, the home backlog, and the laws -/

/-- Every timer of the station itself has run out. -/
def due (s : State) : State :=
  { s with ctl := { s.ctl with listen := .running 0, leave := .running 0, presence := .running 0 }
           pub := { s.pub with refresh := .running 0, scan := .running 0 } }

theorem witness_StationTimersExpire :
    ((due (inMode .listen station)).ctl.mode = .listen ∧ (due (inMode .listen station)).ctl.listen.due = true ∧
      (due (inMode .listen station)).ctl.leaveQueued = false) ∧
      ((due (leaving station)).ctl.mode = .leaving ∧ (due (leaving station)).ctl.leave.due = true ∧
        (due (leaving station)).ctl.leaveQueued = false) ∧
      (due station).ctl.presence.due = true ∧ (due station).pub.refresh.due = true := by decide

theorem witness_ScanTimerExpires :
    (due (queueOf 16 station)).pub.scan.due = true ∧ (due (queueOf 16 station)).ctl.leaveQueued = false ∧
      (due (queueOf 16 station)).line.queue.length ≤ 16 := by decide

/-- A claim whose three timers have run out. -/
def dueClaim (k : ClaimKind) (st : ClaimState) (n : Nat) : ClaimRecord :=
  { claim k st n with answer := .running 0, patience := .running 0, orphanWait := .running 0 }

theorem witness_ClaimTimersExpire :
    station.ctl.leaveQueued = false ∧
      (((station.setEntry 16 { owned with tenure := .running 0 }).entry 16).tenure.due = true ∧ Servable leaver 16 ∧
        ¬Servable station 16 ∧ ¬Servable (inMode .listen leaver) 16) ∧
      ((station.setServing 42 { ServeEntry.reset with redirect := .running 0 }).serving 42).redirect.due = true ∧
      (∀ k ∈ [ClaimKind.normal, .orphan], ∀ st ∈ [ClaimState.asked, .orphanWait, .deferred], ∀ n ∈ [2, 3],
        (claiming 42 (dueClaim k st n) station).liveRecord 42 = some (dueClaim k st n) ∧ (dueClaim k st n).answer.due = true ∧
          (dueClaim k st n).patience.due = true ∧ (dueClaim k st n).orphanWait.due = true) ∧
      ((station.entry 42).owner = some 5 ∧ (station.peer 5).state = .present) ∧
      (∀ p, (exhausting.entry 46).owner = some p → (exhausting.peer p).state ≠ .present) := by decide +kernel

/-- The station with a home backlog. -/
def backlogged (rs : List Region) (s : State) : State := { s with ctl := { s.ctl with backlog := rs } }

theorem witness_HomeBacklog :
    ((backlogged [0, 127] station).ctl.mode = .active ∧ (backlogged [0, 127] station).ctl.leaveQueued = false ∧
      (backlogged [0, 127] station).ctl.backlog = 0 :: [127]) ∧
      ((backlogged [0] station).entry 0).role.owns = true ∧ Claimable (backlogged [50] station) 50 ∧
      (((backlogged [58] eightClaims).entry 58).role.owns = false ∧ (backlogged [58] eightClaims).liveRecord 58 = none ∧
        ¬Claimable (backlogged [58] eightClaims) 58) := by
  unfold Claimable
  decide +kernel

theorem witness_SequenceClasses :
    0 < 65536 ∧ 1 < 65536 ∧ 32767 < 65536 ∧ 32768 < 65536 ∧ 65535 < 65536 := by decide

theorem witness_BurstsSpellTheirFrames :
    (header 5 42 1).major = 2 ∧ stationOf (header 5 42 1).source = some 5 ∧ (5 : Station) ≠ 11 ∧
      (List.replicate 143 (7 : Byte)).length = (143 : Byte).toNat ∧ (List.replicate 143 (7 : Byte)).length ≤ 143 := by
  decide +kernel

/-- A bad burst in front of the queue. -/
def stepping (s : State) : State := { s with pending := [.badBurst] }

/-- Station 11 in CONFIG after a reset. -/
def resting : State := { State.reset with port := station.port, ctl := { Controller.reset with mode := .config, ownId := 11 } }

theorem witness_StepsKeepImageAndBounds :
    ImageLaw (stepping (parking 16)) ∧ BoundsLaw (stepping (parking 16)) ∧ ∃ t, step (stepping (parking 16)) = .next t := by
  have hrec : ∀ r, (stepping (parking 16)).record r = none ∨ (stepping (parking 16)).record r = some (claim .normal .asked 3) := by
    decide +kernel
  refine ⟨rfl, ?_, _, rfl⟩
  exact
    { notices := by decide
      overflow := by decide
      parked := by decide +kernel
      queue := by decide
      marks := fun h => absurd rfl h
      consecutive := by decide
      controlRun := by decide
      attempts := fun f h => by cases h
      statistics := by decide
      staleAge := by decide +kernel
      claims := fun r c h => by
        rcases hrec r with h' | h' <;> rw [h'] at h
        · cases h
        · cases h; decide
      roster := by decide +kernel }

theorem witness_StepsKeepOwnership : OwnershipLaw (stepping station) ∧ ∃ t, step (stepping station) = .next t := by
  refine ⟨?_, _, rfl⟩
  have hdir : ∀ r, (stepping station).entry r = owned ∨ (stepping station).entry r = { owned with role := .handing } ∨
      (stepping station).entry r = ofPeer 5 ∨ (stepping station).entry r = { ofPeer 5 with replica := .stale } ∨
      (stepping station).entry r = DirEntry.reset := by decide +kernel
  have hserve : ∀ r, (stepping station).serving r = ServeEntry.reset := by decide +kernel
  have hpub : ∀ r, (stepping station).pubEntry r = none := by decide +kernel
  exact
    { roles :=
        { roles := fun r => by
            rcases hdir r with h | h | h | h | h <;> rw [h]
            · rfl
            · rfl
            · exact ⟨5, by decide, rfl⟩
            · exact ⟨5, by decide, rfl⟩
            · rfl
          claimants := by decide +kernel
          targets := fun r target list h => by rw [hserve r] at h; cases h
          roster := by decide +kernel }
      valid := by decide +kernel
      fresh := by decide +kernel
      marks := by decide +kernel
      published := fun r e h => by rw [hpub r] at h; cases h
      records := by decide +kernel
      table := ⟨by decide, by decide, by decide +kernel, by decide +kernel⟩
      captured := fun r target list h => by rw [hserve r] at h; cases h
      taking := fun f r h => by cases h
      parked := by decide +kernel }

theorem witness_StepsKeepQuiet : QuietLaw (stepping resting) ∧ ∃ t, step (stepping resting) = .next t := by
  refine ⟨?_, _, rfl⟩
  unfold QuietLaw
  decide +kernel

theorem witness_StepsKeepLeaving :
    LeaveLaw (stepping departing) ∧ (stepping departing).ctl.leaveQueued = true ∧ (stepping departing).pub.barred = true ∧ ∃ t, step (stepping departing) = .next t := by
  exact ⟨⟨fun _ => by decide +kernel, fun _ => by decide +kernel⟩, rfl, rfl, _, rfl⟩

end Sys2Proof.Tests
end

/-! The class of a received sequence (R12): the ranges of the distance s - L that `classify` tells apart, the distance of L + d
across the wrap, and O54 from the two. -/

namespace Sys2Proof.Machine

/-- R12's table: every distance modulo 65 536 falls under exactly one row, with that row's class. -/
theorem classify_cases (s L : Half) :
    ((s - L).toNat = 0 ∧ classify s L = .same) ∨ ((s - L).toNat = 1 ∧ classify s L = .next) ∨
      ((2 ≤ (s - L).toNat ∧ (s - L).toNat ≤ 32767) ∧ classify s L = .gap) ∨
      (32768 ≤ (s - L).toNat ∧ classify s L = .older) := by
  simp only [classify]
  split_ifs with hsame hnext hgap
  · exact .inl ⟨hsame, rfl⟩
  · exact .inr (.inl ⟨hnext, rfl⟩)
  · exact .inr (.inr (.inl ⟨⟨Nat.two_le_iff _ |>.mpr ⟨hsame, hnext⟩, hgap⟩, rfl⟩))
  · exact .inr (.inr (.inr ⟨Nat.lt_of_not_le hgap, rfl⟩))

/-- The distance from L is the same on both sides of the sequence's wrap at 65 536. -/
theorem toNat_ofNat_add_sub (L : Half) {d : Nat} (hd : d < 65536) : (BitVec.ofNat 16 (L.toNat + d) - L).toNat = d := by
  have hsub : BitVec.ofNat 16 (L.toNat + d) - L = BitVec.ofNat 16 d := by
    rw [BitVec.ofNat_add, BitVec.ofNat_toNat, BitVec.setWidth_eq, BitVec.add_comm, BitVec.add_sub_cancel]
  rw [hsub, BitVec.toNat_ofNat, Nat.mod_eq_of_lt hd]

/-- Settles O54: the distance of L + d from L is d, and in each row of R12's table d meets that row's range and no other. -/
theorem sequenceClasses : Obligations.SequenceClasses := by
  intro L d hd s
  have hdist : (s - L).toNat = d := toNat_ofNat_add_sub L hd
  obtain ⟨hrow, hclass⟩ | ⟨hrow, hclass⟩ | ⟨hrow, hclass⟩ | ⟨hrow, hclass⟩ := classify_cases s L <;>
    · rw [hdist] at hrow
      simp only [hclass, reduceCtorEq, iff_true, iff_false]
      omega

end Sys2Proof.Machine

/-! A received WITHDRAW and a received REPAIR (R33, R59), and the frames of every kind whose region byte names no region (R177):
O45. -/

namespace Sys2Proof.Machine

open Sys2Proof.Safety

/-- R177: a frame that carries no region from 0 to 127 is counted and reaches the roster, and no block beyond it. -/
theorem State.receive_noRegion {s : State} {h : Header} {p : Station} (H : Heard s h p) (hr : regionOf h.region = none)
    (f : Station → Region → State → State) : s.receive h .other (fun p => inRegion h (f p)) = heardFrom h p s := by
  rw [State.receive_heard H]
  simp only [inRegion, hr]

/-- R177, for each kind that carries a region; an unknown kind has no block beyond the roster in any case (R176). -/
theorem exec_carries_noRegion {s : State} {h : Header} {p : Station} (H : Heard s h p) (hr : regionOf h.region = none)
    {c : Instr} (hc : Carries c h) : exec c s = .next (heardFrom h p s) := by
  cases hc with
  | unknown code _ hcode => exact (if_pos hcode).trans (congrArg _ (State.receive_heard H _))
  | update _ _ _ _ hwf => exact (if_pos hwf).trans (congrArg _ (State.receive_noRegion H hr _))
  | claim | wait | refuse | withdraw | handover | take | release | repair =>
    exact congrArg Host.Outcome.next (State.receive_noRegion H hr _)

/-- A WITHDRAW that is heard, at its region. -/
theorem exec_withdrawReceived {s : State} {h : Header} {p : Station} (H : Heard s h p) {r : Region}
    (hr : regionOf h.region = some r) : exec (.withdrawReceived h) s = .next (State.takeWithdraw p r (heardFrom h p s)) :=
  congrArg Host.Outcome.next (State.receive_region H hr State.takeWithdraw)

/-- A REPAIR that is heard, at its region. -/
theorem exec_repairReceived {s : State} {h : Header} {p : Station} (H : Heard s h p) {r : Region}
    (hr : regionOf h.region = some r) : exec (.repairReceived h) s = .next (State.addFull r (heardFrom h p s)) :=
  congrArg Host.Outcome.next (State.receive_region H hr fun _ => State.takeRepair)

/-- R59: the claimant's entry is removed by the region's owner. -/
theorem State.takeWithdraw_owned (p : Station) {r : Region} {s : State} (h : (s.entry r).role.owns = true) :
    s.takeWithdraw p r = s.removeClaimant r p := if_pos h

theorem State.takeWithdraw_unowned (p : Station) {r : Region} {s : State} (h : (s.entry r).role.owns = false) :
    s.takeWithdraw p r = s := if_neg (by simp [h])

/-- R23: an addition is made for an OWNER region alone. -/
theorem State.addFull_notOwner {r : Region} {s : State} (h : (s.entry r).role ≠ .owner) : s.addFull r = s := by
  simp [State.addFull, State.additionMade, h]

/-- Settles O45: the frame is heard, and its block then acts by the role of the region that it names, if it names one. -/
theorem withdrawAndRepairReceived : Obligations.WithdrawAndRepairReceived := by
  intro s h p H u
  refine ⟨fun r hr => ?_, fun hr c hc => exec_carries_noRegion H hr hc⟩
  rw [exec_withdrawReceived H hr, exec_repairReceived H hr]
  refine ⟨fun howns => ?_, fun howns => ?_, fun howner => ?_, fun hother => ?_⟩
  · rw [State.takeWithdraw_owned p (s := heardFrom h p s) howns]
    rfl
  · rw [State.takeWithdraw_unowned p (s := heardFrom h p s) howns]
  · rw [State.addFull_added]
  · rw [State.addFull_notOwner (s := heardFrom h p s) hother]

end Sys2Proof.Machine

/-! The repair scan (R34, R35): the Line Unit and the directory after the selected regions have been taken one after another, and
O51 from the fold over all regions. -/

namespace Sys2Proof.Machine

open Sys2Proof.Safety

/-- The Line Unit after a REPAIR was handed over for each picked region: queued while there is room, and else suppressed (R168). -/
def repairLine (picked : List Region) (l : LineUnit) : LineUnit :=
  { l with
    queue := l.queue ++ (picked.take (16 - l.queue.length)).map fun r => { frame := .repair r, fallen := false }
    suppressed := if picked.length ≤ 16 - l.queue.length then l.suppressed
      else min 65535 (l.suppressed + (picked.length - (16 - l.queue.length))) }

/-- The directory entry of a region whose REPAIR has been queued (R35). -/
def repairing (e : DirEntry) : DirEntry := { e with staleAge := 0, repair := true }

/-- The state `t` after the picked regions were taken from `s`, in order, by a scan (R35). -/
structure Scanned (picked : List Region) (s t : State) : Prop where
  /-- Those whose REPAIR found room are marked. -/
  entry : ∀ q, t.entry q = if q ∈ picked.take (16 - s.line.queue.length) then repairing (s.entry q) else s.entry q
  /-- The REPAIRs are queued or suppressed. -/
  line : t.line = repairLine picked s.line
  /-- Nothing else changes. -/
  frame : { t with dir := s.dir, line := s.line } = s

/-! ### The Line Unit over a scan -/

theorem repairLine_nil (l : LineUnit) : repairLine [] l = l := by simp [repairLine]

theorem repairLine_hasRoom (picked : List Region) (l : LineUnit) :
    (repairLine picked l).queue.length < 16 ↔ picked.length < 16 - l.queue.length := by
  simp only [repairLine, List.length_append, List.length_map, List.length_take]
  omega

/-- A REPAIR is one more answer after those before it (R168). -/
theorem repairLine_append (picked : List Region) (r : Region) (l : LineUnit) :
    repairLine (picked ++ [r]) l = answerLine (.repair r) (repairLine picked l) := by
  unfold answerLine
  simp only [repairLine_hasRoom]
  split_ifs with hroom
  · have hlater : picked.length + 1 ≤ 16 - l.queue.length := hroom
    have hbefore : picked.length ≤ 16 - l.queue.length := hroom.le
    simp [repairLine, List.take_of_length_le, hlater, hbefore]
  · have hfull : 16 - l.queue.length ≤ picked.length := Nat.le_of_not_lt hroom
    simp only [repairLine, List.take_append_of_le_length hfull, List.length_append, List.length_singleton]
    congr 1
    split_ifs <;> omega

/-! ### One region -/

theorem State.scanRegion_unselected {r : Region} {s : State} (h : s.scanSelects r = false) : s.scanRegion r = s :=
  if_neg (by simp [h])

/-- R35: a selected region's REPAIR is answered, and the region is marked where the queue has room. -/
theorem State.scanRegion_selected {r : Region} {s : State} (h : s.scanSelects r = true) (hq : s.ctl.leaveQueued = false) :
    s.scanRegion r = { s with
      dir := if s.line.queue.length < 16 then put s.dir r (repairing (s.entry r)) else s.dir
      line := answerLine (.repair r) s.line } := by
  unfold State.scanRegion LineUnit.room Config.maxQueue
  rw [if_pos h, State.answer_eq _ _ hq]
  by_cases hroom : s.line.queue.length < 16
  · simp only [hroom, decide_true, if_true]; rfl
  · simp only [hroom, decide_false, if_false, Bool.false_eq_true]

/-! ### The fold over the regions -/

theorem scanned_nil (s : State) : Scanned [] s s :=
  ⟨fun _ => by simp, (repairLine_nil s.line).symm, rfl⟩

theorem Scanned.ctl {picked : List Region} {s t : State} (h : Scanned picked s t) : t.ctl = s.ctl :=
  (congrArg State.ctl h.frame :)

theorem Scanned.pub {picked : List Region} {s t : State} (h : Scanned picked s t) : t.pub = s.pub :=
  (congrArg State.pub h.frame :)

theorem Scanned.entry_unpicked {picked : List Region} {s t : State} (h : Scanned picked s t) {r : Region} (hr : r ∉ picked) :
    t.entry r = s.entry r := by
  rw [h.entry, if_neg (mt List.mem_of_mem_take hr)]

/-- A region that was not picked so far is selected as it was before the scan: its entry, the roster and the configuration are as
they were. -/
theorem Scanned.scanSelects {picked : List Region} {s t : State} (h : Scanned picked s t) {r : Region} (hr : r ∉ picked) :
    t.scanSelects r = s.scanSelects r := by
  have hroster : t.roster = s.roster := (congrArg State.roster h.frame :)
  simp only [State.scanSelects, State.isPresent, State.peer, h.entry_unpicked hr, h.ctl, hroster]

/-- A further selected region is taken: it is marked while the queue has room, and is else left as it was. -/
theorem Scanned.append {picked : List Region} {s t : State} (h : Scanned picked s t) {r : Region} (hr : r ∉ picked)
    (hsel : s.scanSelects r = true) (hq : s.ctl.leaveQueued = false) : Scanned (picked ++ [r]) s (t.scanRegion r) := by
  have hroom : t.line.queue.length < 16 ↔ picked.length < 16 - s.line.queue.length := by
    rw [h.line, repairLine_hasRoom]
  rw [State.scanRegion_selected ((h.scanSelects hr).trans hsel) (by rw [h.ctl, hq])]
  refine ⟨fun q => ?_, by rw [h.line, repairLine_append], h.frame⟩
  by_cases hfits : picked.length < 16 - s.line.queue.length
  · have htaken : (picked ++ [r]).take (16 - s.line.queue.length) = picked ++ [r] :=
      List.take_of_length_le (by simpa using hfits)
    have hmarked := h.entry q
    rw [List.take_of_length_le hfits.le] at hmarked
    rw [if_pos (hroom.2 hfits), htaken]
    change (t.setEntry r (repairing (t.entry r))).entry q = _
    rw [State.setEntry_entry, h.entry_unpicked hr, hmarked]
    by_cases hqr : q = r <;> simp [hqr]
  · rw [if_neg (mt hroom.1 hfits), List.take_append_of_le_length (Nat.le_of_not_lt hfits)]
    exact h.entry q

/-- A scan over every region takes those that it selects, in ascending order (R34). -/
theorem State.forRegions_scanRegion (s : State) (hq : s.ctl.leaveQueued = false) :
    Scanned (allRegions.filter s.scanSelects) s (s.forRegions State.scanRegion) := by
  refine State.forRegions_induct (P := fun done t => Scanned (done.filter s.scanSelects) s t) s (scanned_nil s) ?_
  intro done r t hr h
  have hnew : r ∉ done.filter s.scanSelects := mt (fun hm => (List.mem_filter.1 hm).1) hr
  rw [List.filter_append]
  cases hsel : s.scanSelects r with
  | true => simpa [hsel] using h.append hnew hsel hq
  | false => simpa [hsel, State.scanRegion_unselected ((h.scanSelects hnew).trans hsel)] using h

/-- R34: on its expiry the directory is scanned, and the timer restarts at 50 ms. -/
theorem exec_scanTimerExpiry {s : State} (hdue : s.pub.scan.due = true) (hq : s.ctl.leaveQueued = false) :
    ∃ t, Scanned (allRegions.filter s.scanSelects) s t ∧
      exec .scanTimerExpiry s = .next { t with pub := { t.pub with scan := .running 50 } } :=
  ⟨_, State.forRegions_scanRegion s hq, congrArg Host.Outcome.next (if_pos hdue)⟩

/-- Settles O51: the selected regions are taken one after another, and beyond that only the scan timer restarts. -/
theorem scanTimerExpires : Obligations.ScanTimerExpires := by
  intro s hdue hq _ selected all taken
  obtain ⟨t, h, hexec⟩ := exec_scanTimerExpiry hdue hq
  refine ⟨_, hexec, h.entry, h.line, by rw [h.pub], ?_⟩
  rw [← h.pub]
  exact h.frame

end Sys2Proof.Machine

/-! A host read of the window area (R126, R128): the answer in each row of R128's table, the bytes that it carries, and O8 from
the two. -/

namespace Sys2Proof.Machine

open Sys2Proof.Safety

/-- R128: in RESET, for lanes that form no group, or without a translation, the read is answered ERROR. -/
theorem State.windowAnswer_unplaced {s : State} {word : BitVec 13} {lanes : BitVec 4}
    (h : s.ctl.mode = .reset ∨ laneGroup lanes = none ∨ windowTarget s.ctl.config word = none) :
    s.windowAnswer word lanes = { ok := false, data := 0 } := by
  unfold State.windowAnswer
  split_ifs with hmode
  · rfl
  · obtain hreset | hlanes | hwindow := h
    · exact absurd hreset hmode
    · rw [hlanes]
    · rw [hwindow]
      cases laneGroup lanes <;> rfl

section Placed

variable {s : State} {word : BitVec 13} {lanes : BitVec 4} {first len : Nat} {w : Window} {r : Region}

/-- R128: a placed read is decided by the replica test of its window. -/
theorem State.windowAnswer_placed (hmode : s.ctl.mode ≠ .reset) (hlanes : laneGroup lanes = some (first, len))
    (hwindow : windowTarget s.ctl.config word = some (w, r)) :
    s.windowAnswer word lanes =
      if w.refuseStale ∧ (s.entry r).replica = .stale then { ok := false, data := 0 }
      else { ok := true, data := gatherLanes first len fun k => imageRead s.image (byteAddress r (wordOffset word + k)) } := by
  rw [State.windowAnswer, if_neg hmode, hlanes, hwindow]

/-- The replica test passes where the window does not refuse stale data or the replica is VALID. -/
theorem replicaTest_passes (h : w.refuseStale = false ∨ (s.entry r).replica = .valid) :
    ¬(w.refuseStale = true ∧ (s.entry r).replica = .stale) := by
  rintro ⟨hrefuse, hstale⟩
  simp [hrefuse, hstale] at h

end Placed

/-- A window read changes the answer at the host port and nothing else. -/
theorem exec_windowRead {s : State} {word : BitVec 13} {lanes : BitVec 4} {ok : Bool} {data : HostWord}
    (h : s.windowAnswer word lanes = { ok := ok, data := data }) :
    exec (.windowRead word lanes) s = .next { s with port := answered ok data s.port } := by
  change execWindowRead word lanes s = _
  rw [execWindowRead, h]
  rfl

/-- Lane k of a word of the window area is the image byte at the word's address in the region plus k (R126). -/
theorem byteAddress_wordOffset (r : Region) (word : BitVec 13) (k : Nat) :
    byteAddress r (wordOffset word + k) = 128 * r.val + 4 * (word.toNat % 32) + k :=
  (Nat.add_assoc _ _ _).symm

/-- Settles O8: R128's tests decide the answer, and an answered read carries the image bytes on the lanes of its group. -/
theorem windowRead : Obligations.WindowRead := by
  intro s word lanes error
  refine ⟨fun hunplaced => exec_windowRead (State.windowAnswer_unplaced hunplaced), ?_⟩
  intro first len w r hmode hlanes hwindow
  have hanswer := State.windowAnswer_placed hmode hlanes hwindow
  refine ⟨fun hrefused => ?_, fun hpasses => ?_⟩
  · rw [if_pos hrefused] at hanswer
    exact exec_windowRead hanswer
  · rw [if_neg (replicaTest_passes hpasses)] at hanswer
    refine ⟨_, exec_windowRead hanswer, fun k => ?_⟩
    rw [laneByte_gatherLanes, byteAddress_wordOffset]

end Sys2Proof.Machine

/-! The laws at reset (O60): every table of the reset state is uniform, every list empty and every timer stopped. -/

namespace Sys2Proof.Machine

open Sys2Proof.Safety

@[simp] theorem State.reset_entry (r : Region) : State.reset.entry r = DirEntry.reset := pick_replicate _ _
@[simp] theorem State.reset_pubEntry (r : Region) : State.reset.pubEntry r = none := pick_replicate _ _
@[simp] theorem State.reset_record (r : Region) : State.reset.record r = none := pick_replicate _ _
@[simp] theorem State.reset_serving (r : Region) : State.reset.serving r = ServeEntry.reset := pick_replicate _ _
@[simp] theorem State.reset_peer (p : Station) : State.reset.peer p = RosterEntry.reset := pick_replicate _ _

theorem State.reset_recordCount : State.reset.recordCount = 0 := by
  simp [State.recordCount, State.reset, ClaimEngine.reset]

/-- Every collection is empty and every count is 0 at reset. -/
theorem boundsLaw_reset : BoundsLaw State.reset := by
  constructor <;> simp [State.reset, LineUnit.reset, CommandUnit.reset, State.entry, State.record, State.peer,
    ClaimEngine.reset, DirEntry.reset, RosterEntry.reset]

theorem rolesLaw_reset : RolesLaw State.reset := by
  refine ⟨fun r => ?_, ?_, fun r target list h => ?_, ?_⟩
  · simp [agrees, DirEntry.reset]
  · simp [State.reset, ClaimEngine.reset]
  · simp [ServeEntry.reset] at h
  · simp

/-- Nothing is owned, claimed, captured, published or parked at reset. -/
theorem ownershipLaw_reset : OwnershipLaw State.reset where
  roles := rolesLaw_reset
  valid r h := by simp [DirEntry.reset, Role.owns] at h
  fresh r h := by simp [DirEntry.reset] at h
  marks r _ := by simp [DirEntry.reset]
  published r e h := by simp at h
  records := ⟨by simp [State.reset_recordCount], fun r _ => by simp⟩
  table := by simp [State.reset, ClaimEngine.reset, State.claimants]
  captured r target list h := by simp [ServeEntry.reset] at h
  taking f r h := by simp [State.reset, LineUnit.reset] at h
  parked w h := by simp [State.reset] at h

theorem quietLaw_reset : QuietLaw State.reset := by
  intro _
  refine ⟨fun r => ?_, rfl, rfl, rfl, rfl, rfl, rfl, rfl, rfl, rfl, rfl, rfl, rfl, fun p => ?_⟩
  · simp [DirEntry.reset, Role.owns, ServeEntry.reset]
  · simp [RosterEntry.reset]

theorem leaveLaw_reset : LeaveLaw State.reset where
  queued h := by simp [State.reset, Controller.reset] at h
  barred h := by simp [State.reset, Publication.reset] at h

/-- Settles O60: each law, read off the reset values of the tables that it speaks of. -/
theorem lawsHoldAtReset : Obligations.LawsHoldAtReset :=
  ⟨imageWf_reset, boundsLaw_reset, ownershipLaw_reset, quietLaw_reset, leaveLaw_reset⟩

end Sys2Proof.Machine

/-! What every act of the station that is not a change of its state keeps: the waiting commands, the station state, the Image
Store's form, every bound and the laws of leaving. One lemma for each plain update; the operations are chains of them. -/

namespace Sys2Proof.Machine

open Sys2Proof.Safety

/-- Acts that keep the station state and these laws. -/
structure Kept (s t : State) : Prop where
  pending : t.pending = s.pending
  mode : t.ctl.mode = s.ctl.mode
  image : ImageLaw s → ImageLaw t
  bounds : BoundsLaw s → BoundsLaw t
  leave : LeaveLaw s → LeaveLaw t

@[refl] theorem Kept.refl (s : State) : Kept s s := ⟨rfl, rfl, id, id, id⟩

theorem Kept.trans {s t u : State} (h : Kept s t) (g : Kept t u) : Kept s u :=
  ⟨g.pending.trans h.pending, g.mode.trans h.mode, g.image ∘ h.image, g.bounds ∘ h.bounds, g.leave ∘ h.leave⟩

theorem Kept.of_eq {s t : State} (h : t = s) : Kept s t := h ▸ Kept.refl s

/-- Acts taken for the items of a list, one after another. -/
theorem Kept.foldl {α : Type} {f : State → α → State} (h : ∀ s a, Kept s (f s a)) (l : List α) (s : State) :
    Kept s (l.foldl f s) := by
  induction l generalizing s with
  | nil => exact Kept.refl s
  | cons a l ih => exact (h s a).trans (ih _)

theorem Kept.forRegions {f : Region → State → State} (h : ∀ r s, Kept s (f r s)) (s : State) : Kept s (s.forRegions f) :=
  Kept.foldl (fun s r => h r s) _ s

/-! ### Plain updates of one block -/

theorem Kept.port (s : State) (p : Port) : Kept s { s with port := p } :=
  ⟨rfl, rfl, id, fun h => { h with }, fun h => { h with }⟩

theorem Kept.withImage (s : State) (m : Image) (hm : imageWf s.image = true → imageWf m = true) : Kept s { s with image := m } :=
  ⟨rfl, rfl, hm, fun h => { h with }, fun h => { h with }⟩

/-- The directory: stale ages stay within their bound. -/
theorem Kept.dir (s : State) (d : Vector DirEntry 128)
    (hd : (∀ r, (pick s.dir r).staleAge ≤ 65535) → ∀ r, (pick d r).staleAge ≤ 65535) : Kept s { s with dir := d } :=
  ⟨rfl, rfl, id, fun h => { h with staleAge := hd h.staleAge }, fun h => { h with }⟩

/-- The claim records: attempts stay within their bound. -/
theorem Kept.records (s : State) (v : Vector (Option ClaimRecord) 128)
    (hv : (∀ r c, pick s.claims.records r = some c → c.attempts ≤ 3) → ∀ r c, pick v r = some c → c.attempts ≤ 3) :
    Kept s { s with claims := { s.claims with records := v } } :=
  ⟨rfl, rfl, id, fun h => { h with claims := hv h.claims }, fun h => { h with }⟩

theorem Kept.serve (s : State) (v : Vector ServeEntry 128) : Kept s { s with claims := { s.claims with serve := v } } :=
  ⟨rfl, rfl, id, fun h => { h with }, fun h => { h with }⟩

theorem Kept.table (s : State) (l : List TableEntry) : Kept s { s with claims := { s.claims with table := l } } :=
  ⟨rfl, rfl, id, fun h => { h with }, fun h => { h with }⟩

theorem Kept.roster (s : State) (v : Vector RosterEntry 32)
    (hv : (∀ p, (pick s.roster p).heard ≤ 65535 ∧ (pick s.roster p).homeCount ≤ 128) →
      ∀ p, (pick v p).heard ≤ 65535 ∧ (pick v p).homeCount ≤ 128) : Kept s { s with roster := v } :=
  ⟨rfl, rfl, id, fun h => { h with roster := hv h.roster }, fun h => { h with }⟩

theorem Kept.parked (s : State) (l : List ParkedWrite) (hl : s.parked.length ≤ 16 → l.length ≤ 16) :
    Kept s { s with parked := l } :=
  ⟨rfl, rfl, id, fun h => { h with parked := hl h.parked }, fun h => { h with }⟩

theorem Kept.cmd (s : State) (c : CommandUnit)
    (hc : s.cmd.notices.length ≤ 32 ∧ s.cmd.overflow ≤ 65535 → c.notices.length ≤ 32 ∧ c.overflow ≤ 65535) :
    Kept s { s with cmd := c } :=
  ⟨rfl, rfl, id, fun h => { h with notices := (hc ⟨h.notices, h.overflow⟩).1, overflow := (hc ⟨h.notices, h.overflow⟩).2 },
    fun h => { h with }⟩

/-- The publish set: nothing is published while additions are barred. -/
theorem Kept.pub (s : State) (p : Publication) (hb : p.barred = s.pub.barred)
    (hp : s.pub.barred = true → (∀ r, pick s.pub.set r = none) → s.pub.refresh = .stopped → s.pub.scan = .stopped →
      (∀ r, pick p.set r = none) ∧ p.refresh = .stopped ∧ p.scan = .stopped) : Kept s { s with pub := p } :=
  ⟨rfl, rfl, id, fun h => { h with }, fun h =>
    { queued := fun hq => by
        obtain ⟨h1, h2, h3, h4, h5, h6, h7, h8⟩ := h.queued hq
        exact ⟨h1, h2, h3, h4, h5, h6, h7, hb.trans h8⟩
      barred := fun hbar => by
        obtain ⟨h1, h2, h3, h4, h5⟩ := h.barred (hb.symm.trans hbar)
        exact ⟨h1, h2, hp (hb.symm.trans hbar) h3 h4 h5⟩ }⟩

/-- The bounds of the Line Unit. -/
structure LineBounds (l : LineUnit) : Prop where
  queue : l.queue.length ≤ 16
  marks : l.marks ≠ [] → l.queue.length = 16
  consecutive : l.consecutive ≤ 4
  controlRun : l.controlRun ≤ 4
  attempts : ∀ f, l.flight = some f → 1 ≤ f.attempt ∧ f.attempt ≤ 16
  statistics : l.received ≤ 65535 ∧ l.checkErrors ≤ 65535 ∧ l.collisions ≤ 65535 ∧ l.drops ≤ 65535 ∧ l.suppressed ≤ 65535

theorem lineBounds_of {s : State} (h : BoundsLaw s) : LineBounds s.line :=
  ⟨h.queue, h.marks, h.consecutive, h.controlRun, h.attempts, h.statistics⟩

/-- Nothing but a LEAVE frame waits to be sent (R119). -/
def LeaveOnly (l : LineUnit) : Prop := (∀ e, e ∈ l.queue → e.frame = .leave) ∧ l.queue.length ≤ 1 ∧ l.marks = []

/-- The Line Unit: its bounds, and nothing queued or marked behind the LEAVE frame. -/
theorem Kept.withLine (s : State) (l : LineUnit) (hb : LineBounds s.line → LineBounds l)
    (hq : s.ctl.leaveQueued = true → LeaveOnly s.line → LeaveOnly l) : Kept s { s with line := l } :=
  ⟨rfl, rfl, id, fun h =>
    have hl := hb (lineBounds_of h)
    { h with queue := hl.queue, marks := hl.marks, consecutive := hl.consecutive, controlRun := hl.controlRun
             attempts := hl.attempts, statistics := hl.statistics },
    fun h =>
    { h with
      queued := fun hleave => by
        obtain ⟨h1, h2, h3, h4, h5, h6, h7, h8⟩ := h.queued hleave
        obtain ⟨h2, h3, h4⟩ := hq hleave ⟨h2, h3, h4⟩
        exact ⟨h1, h2, h3, h4, h5, h6, h7, h8⟩ }⟩

/-! ### The station's tables -/

theorem State.setEntry_kept (s : State) (r : Region) (e : DirEntry) (he : (s.entry r).staleAge ≤ 65535 → e.staleAge ≤ 65535) :
    Kept s (s.setEntry r e) :=
  Kept.dir s _ fun h q => by
    rw [pick_put]
    split
    · exact he (h r)
    · exact h q

theorem State.setServing_kept (s : State) (r : Region) (e : ServeEntry) : Kept s (s.setServing r e) := Kept.serve s _

theorem State.setRecord_kept (s : State) (r : Region) (x : Option ClaimRecord)
    (hx : (∀ c, s.record r = some c → c.attempts ≤ 3) → ∀ c, x = some c → c.attempts ≤ 3) : Kept s (s.setRecord r x) :=
  Kept.records s _ fun h q c => by
    rw [pick_put]
    split
    · exact hx (h r) c
    · exact h q c

theorem State.freed_kept (s : State) (r : Region) : Kept s (s.setRecord r none) := s.setRecord_kept r none (by simp)

/-- A live record replaced by one with as many CLAIM frames counted, or fewer. -/
theorem State.changed_kept {s : State} {r : Region} {c : ClaimRecord} (hc : s.liveRecord r = some c) {d : ClaimRecord}
    (hd : d.attempts ≤ c.attempts ∨ d.attempts ≤ 3) : Kept s (s.setRecord r (some d)) :=
  s.setRecord_kept r _ fun h x hx => by
    have := h c (State.record_of_live hc)
    cases hx
    omega

theorem State.setPeer_kept (s : State) (p : Station) (e : RosterEntry)
    (he : (s.peer p).heard ≤ 65535 ∧ (s.peer p).homeCount ≤ 128 → e.heard ≤ 65535 ∧ e.homeCount ≤ 128) :
    Kept s (s.setPeer p e) :=
  Kept.roster s _ fun h q => by
    rw [pick_put]
    split
    · exact he (h p)
    · exact h q

theorem State.setPub_kept (s : State) (r : Region) (e : Option PubEntry) (he : s.pub.barred = true → e = none) :
    Kept s (s.setPub r e) :=
  Kept.pub s _ rfl fun hb h hr hs => ⟨fun q => by rw [pick_put]; split; exacts [he hb, h q], hr, hs⟩

/-! ### Notices, flags and answers -/

theorem State.notify_kept (s : State) (n : Notice) : Kept s (s.notify n) := by
  unfold State.notify
  split
  · next h => exact Kept.cmd s _ fun ⟨h1, h2⟩ => ⟨by simpa [Config.maxNotices] using h, h2⟩
  · exact Kept.cmd s _ fun ⟨h1, _⟩ => ⟨h1, satSucc_le _⟩

theorem State.respond_kept (s : State) (ok : Bool) (d : HostWord) : Kept s (s.respond ok d) := Kept.port s _
theorem State.setResult_kept (s : State) (x : Result) : Kept s (s.setResult x) := Kept.cmd s _ id
theorem State.latchDone_kept (s : State) : Kept s s.latchDone := Kept.cmd s _ id
theorem State.latchLine_kept (s : State) : Kept s s.latchLine := Kept.cmd s _ id
theorem State.storeCommand_kept (s : State) (code : Byte) (arg : Option Byte) : Kept s (s.storeCommand code arg) := Kept.cmd s _ id

/-! ### The Line Unit -/

/-- A frame appended where there is room. -/
theorem lineBounds_append {l : LineUnit} (h : LineBounds l) (e : QEntry) (hl : l.queue.length < 16) :
    LineBounds { l with queue := l.queue ++ [e] } :=
  { h with
    queue := by simpa using hl
    marks := fun hm => absurd (h.marks hm) (Nat.ne_of_lt hl) }

theorem State.hand_kept (s : State) (m : Mark) : Kept s (s.hand m) := by
  cases hq : s.ctl.leaveQueued with
  | true => rw [State.hand_leaving m s hq]
  | false =>
    rw [State.hand_eq m s hq]
    refine Kept.withLine s _ (fun h => ?_) (by simp [hq])
    unfold handLine
    split
    · next hl => exact lineBounds_append h _ hl
    · next hl => exact { h with marks := fun _ => by have := h.queue; dsimp only; omega }

theorem State.answer_kept (s : State) (q : QFrame) : Kept s (s.answer q) := by
  cases hq : s.ctl.leaveQueued with
  | true => rw [State.answer_leaving q s hq]
  | false =>
    rw [State.answer_eq q s hq]
    refine Kept.withLine s _ (fun h => ?_) (by simp [hq])
    unfold answerLine
    obtain ⟨h1, h2, h3, h4, -⟩ := h.statistics
    split
    · next hl => exact lineBounds_append h _ hl
    · exact { h with statistics := ⟨h1, h2, h3, h4, by dsimp only; omega⟩ }

theorem State.withdrawIfRoom_kept (s : State) (r : Region) : Kept s (s.withdrawIfRoom r) := by
  rw [State.withdrawIfRoom_line]
  unfold withdrawnLine
  split
  · next h => exact Kept.withLine s _ (fun hb => lineBounds_append hb _ h.2) (by simp [h.1])
  · exact Kept.refl s

theorem State.clearMarks_kept (s : State) (p : Mark → Bool) : Kept s (s.clearMarks p) := by
  refine Kept.withLine s _ (fun h => { h with marks := fun hm => h.marks fun he => hm ?_ }) fun _ ⟨h1, h2, h3⟩ => ⟨h1, h2, ?_⟩
  · simp [he]
  · simp [h3]

/-- Marking frames as fallen changes which frames wait in no way. -/
theorem Kept.fellLine (s : State) (p : QFrame → Bool) : Kept s { s with line := fellLine p s.line } := by
  refine Kept.withLine s _ (fun h => { h with queue := ?_, marks := ?_, attempts := fun f hf => ?_ }) fun _ ⟨h1, h2, h3⟩ => ⟨?_, ?_, h3⟩
  · simpa [Safety.fellLine] using h.queue
  · simpa [Safety.fellLine] using h.marks
  · obtain ⟨g, hg, rfl⟩ := Option.map_eq_some_iff.1 hf
    exact h.attempts g hg
  · simpa [Safety.fellLine] using h1
  · simpa [Safety.fellLine] using h2

theorem State.fell_kept (s : State) (p : QFrame → Bool) : Kept s (s.fell p) := by
  unfold State.fell
  rw [LineUnit.fell_eq]
  exact Kept.fellLine s p

/-- The frame in flight changed, its attempt number kept. -/
theorem Kept.mapFlight (s : State) (g : Flight → Flight) (hg : ∀ f, (g f).attempt = f.attempt) :
    Kept s { s with line := { s.line with flight := s.line.flight.map g } } :=
  Kept.withLine s _ (fun h =>
    have ha : ∀ f, s.line.flight.map g = some f → 1 ≤ f.attempt ∧ f.attempt ≤ 16 := fun f hf => by
      obtain ⟨f', hf', rfl⟩ := Option.map_eq_some_iff.1 hf
      rw [hg]
      exact h.attempts f' hf'
    { h with attempts := ha }) fun _ h => h

theorem State.endFlight_kept (s : State) : Kept s s.endFlight :=
  Kept.withLine s _ (fun h => { h with attempts := fun f hf => by cases hf }) fun _ h => h

theorem State.startWait_kept (s : State) : Kept s s.startWait :=
  Kept.mapFlight s _ fun f => by split <;> rfl

theorem State.startWaitIfIdle_kept (s : State) : Kept s s.startWaitIfIdle := by
  unfold State.startWaitIfIdle
  split
  · exact Kept.refl s
  · exact s.startWait_kept

/-- An attempt starts of the frame in flight. -/
theorem State.startAttempt_kept (s : State) (f : Flight) (x : Frame)
    (hf : LineBounds s.line → 1 ≤ f.attempt ∧ f.attempt ≤ 16) : Kept s (s.startAttempt f x) :=
  Kept.withLine s _ (fun h => { h with attempts := fun g hg => by cases hg; exact hf h }) fun _ h => h

/-! ### The publish set -/

theorem State.addSpan_kept (s : State) (r : Region) (a b : Offset) : Kept s (s.addSpan r a b) := by
  unfold State.addSpan
  split
  · next h =>
    have hb : ¬s.pub.barred = true := by simp [State.additionMade] at h; simp [h]
    split <;> exact s.setPub_kept r _ fun hbar => absurd hbar hb
  · exact Kept.refl s

theorem State.addFull_kept (s : State) (r : Region) : Kept s (s.addFull r) := by
  unfold State.addFull
  split
  · next h =>
    have hb : ¬s.pub.barred = true := by simp [State.additionMade] at h; simp [h]
    split <;> exact s.setPub_kept r _ fun hbar => absurd hbar hb
  · exact Kept.refl s

theorem State.addFullAll_kept (s : State) : Kept s s.addFullAll := Kept.forRegions (fun r s => s.addFull_kept r) s

theorem State.unpublish_kept (s : State) (r : Region) : Kept s (s.unpublish r) :=
  (s.setPub_kept r none fun _ => rfl).trans (Kept.mapFlight _ _ fun f => by split <;> rfl)

/-! ### The directory entry -/

theorem DirEntry.makeStale_staleAge (e : DirEntry) (h : e.staleAge ≤ 65535) : e.makeStale.staleAge ≤ 65535 := by
  unfold DirEntry.makeStale
  split
  · exact Nat.zero_le _
  · exact h

theorem State.markStale_kept (s : State) (r : Region) (d : StaleDetail) : Kept s (s.markStale r d) := by
  have h := s.setEntry_kept r (s.entry r).makeStale (DirEntry.makeStale_staleAge _)
  unfold State.markStale
  dsimp only
  split
  · exact h.trans (State.notify_kept _ _)
  · exact h

theorem State.startTenure_kept (s : State) (r : Region) (seq : Half) : Kept s (s.startTenure r seq) :=
  (s.setEntry_kept r _ fun _ => Nat.zero_le _).trans (State.setServing_kept _ _ _)

theorem State.follow_kept (s : State) (r : Region) (p : Station) (seq : Half) : Kept s (s.follow r p seq) :=
  s.setEntry_kept r _ fun _ => Nat.zero_le _

theorem State.markValid_kept (s : State) (r : Region) : Kept s (s.markValid r) := s.setEntry_kept r _ fun _ => Nat.zero_le _

theorem State.releaseIdle_kept (s : State) (r : Region) : Kept s (s.releaseIdle r) := s.setEntry_kept r _ id

theorem State.handoverIdle_kept (s : State) (r : Region) : Kept s (s.handoverIdle r) := s.setServing_kept r _

/-! ### Claim records -/

theorem State.needClaim_kept (s : State) (r : Region) : Kept s (s.needClaim r) := by
  unfold State.needClaim
  split
  · exact Kept.refl s
  · exact s.hand_kept _

theorem State.endRecordFrames_kept (s : State) (r : Region) : Kept s (s.endRecordFrames r) :=
  (s.fell_kept _).trans (State.clearMarks_kept _ _)

theorem State.freeRecord_kept (s : State) (r : Region) : Kept s (s.freeRecord r) :=
  (s.endRecordFrames_kept r).trans (State.freed_kept _ _)

theorem State.requestClaim_kept (s : State) (r : Region) (o : Origin) : Kept s (s.requestClaim r o) := by
  refine (s.freeRecord_kept r).trans (.trans (State.setRecord_kept _ r _ fun _ c hc => ?_) (State.needClaim_kept _ r))
  cases hc
  exact Nat.zero_le 3

theorem State.toOrphanClaim_kept (s : State) (r : Region) : Kept s (s.toOrphanClaim r) := by
  unfold State.toOrphanClaim
  split
  · next c hc =>
    split
    · exact (State.changed_kept hc (.inr (Nat.zero_le 3))).trans (State.needClaim_kept _ r)
    · exact Kept.refl s
  · exact Kept.refl s

theorem State.toNormalClaim_kept (s : State) (r : Region) : Kept s (s.toNormalClaim r) := by
  unfold State.toNormalClaim
  split
  · next c hc =>
    split
    · exact (State.changed_kept hc (.inr (Nat.zero_le 3))).trans ((State.clearMarks_kept _ _).trans (State.needClaim_kept _ r))
    · exact Kept.refl s
  · exact Kept.refl s

theorem State.dropParked_kept (s : State) (r : Region) : Kept s (s.dropParked r) :=
  Kept.parked s _ fun h => (List.length_filter_le _ _).trans h

/-- What a failure does before its frame keeps the laws. -/
theorem failing_kept (s : State) (r : Region) (why : FailReason) : Kept s (failing r why s) := by
  have hcmd : ∀ (l : List Notice) (s : State), Kept s { s with cmd := noticed l s.ctl.ticks s.cmd } := fun l => by
    induction l with
    | nil => intro s; exact Kept.of_eq (by rw [noticed_nil])
    | cons n l ih =>
      intro s
      have h := (s.notify_kept n).trans (ih _)
      rw [State.notify_eq] at h
      simpa [noticed_append] using h
  have h := ((s.endRecordFrames_kept r).trans (hcmd (failNotices r why s) _)).trans (State.dropParked_kept _ r)
  rw [State.endRecordFrames_eq] at h
  exact h

theorem State.failRecord_kept (s : State) (r : Region) (why : FailReason) : Kept s (s.failRecord r why) := by
  cases hc : s.liveRecord r with
  | none => exact Kept.of_eq (State.failRecord_none r why s hc)
  | some c =>
    rw [State.failRecord_eq r why c s hc]
    have hf := failing_kept s r why
    have hc' : (failing r why s).record r = some c := (State.record_of_live hc : s.record r = some c)
    split_ifs
    · exact hf.trans ((State.setRecord_kept _ r _ fun h d hd => by cases hd; exact h c hc').trans (State.hand_kept _ _))
    · exact hf.trans ((State.freed_kept _ r).trans (State.hand_kept _ _))
    · exact hf.trans (State.freed_kept _ r)

theorem State.exhaust_kept (s : State) (r : Region) : Kept s (s.exhaust r) := by
  unfold State.exhaust
  split
  · split
    · exact s.failRecord_kept r _
    · exact s.toOrphanClaim_kept r
  · exact s.toOrphanClaim_kept r

theorem State.dropClaimMark_kept (s : State) (r : Region) : Kept s (s.dropClaimMark r) := s.clearMarks_kept _

theorem State.claimWithdrawn_kept (s : State) (r : Region) : Kept s (s.claimWithdrawn r) := by
  refine (s.dropClaimMark_kept r).trans ?_
  exact Kept.mapFlight (s.dropClaimMark r) _ fun f => by split <;> rfl

/-! ### Grants -/

/-- A host word written within its region keeps the canonical form. -/
theorem ParkedWrite.base_lt (w : ParkedWrite) : w.base + 3 < 128 := by
  have := w.offset.isLt
  unfold ParkedWrite.base
  omega

theorem State.applyParked_kept (s : State) (r : Region) : Kept s (s.applyParked r) := by
  unfold State.applyParked
  split
  · exact Kept.refl s
  · refine (Kept.withImage s _ fun h => ?_).trans ((State.dropParked_kept _ r).trans (State.addSpan_kept _ _ _ _))
    refine List.foldlRecOn (motive := fun m => imageWf m = true) _ _ h fun m hm w _ => ?_
    exact imageWf_writeLanes m r _ _ _ w.base_lt hm

theorem State.grantByHandover_kept (s : State) (r : Region) (src : Station) : Kept s (s.grantByHandover r src) := by
  unfold State.grantByHandover
  split
  · exact (s.freeRecord_kept r).trans ((State.notify_kept _ _).trans (State.applyParked_kept _ r))
  · exact (s.freeRecord_kept r).trans (State.notify_kept _ _)

theorem State.grantByTake_kept (s : State) (r : Region) (stale : Bool) : Kept s (s.grantByTake r stale) := by
  unfold State.grantByTake
  split
  · exact (s.freeRecord_kept r).trans ((State.notify_kept _ _).trans (State.applyParked_kept _ r))
  · exact (s.freeRecord_kept r).trans (State.notify_kept _ _)

/-! ### The owner claim table, serving and releasing -/

theorem State.clearTable_kept (s : State) (r : Region) : Kept s (s.clearTable r) := Kept.table s _
theorem State.removeClaimant_kept (s : State) (r : Region) (p : Station) : Kept s (s.removeClaimant r p) := Kept.table s _
theorem State.removeEverywhere_kept (s : State) (p : Station) : Kept s (s.removeEverywhere p) := Kept.table s _
theorem State.appendClaimant_kept (s : State) (r : Region) (p : Station) : Kept s (s.appendClaimant r p) := Kept.table s _

theorem State.serve_kept (s : State) (r : Region) : Kept s (s.serve r) := by
  unfold State.serve
  split
  · exact (s.setServing_kept r _).trans (State.hand_kept _ _)
  · exact Kept.refl s

theorem State.requestRelease_kept (s : State) (r : Region) : Kept s (s.requestRelease r) := by
  unfold State.requestRelease
  split
  · exact (s.setEntry_kept r _ (by exact id)).trans (State.hand_kept _ _)
  · exact Kept.refl s

theorem State.releaseIfLeaving_kept (s : State) (r : Region) : Kept s (s.releaseIfLeaving r) := by
  unfold State.releaseIfLeaving
  split
  · exact s.requestRelease_kept r
  · exact Kept.refl s

theorem State.goOn_kept (s : State) (r : Region) : Kept s (s.goOn r) :=
  (s.serve_kept r).trans (State.releaseIfLeaving_kept _ r)

theorem State.queueLeave_line (s : State) :
    s.queueLeave.line = { s.line with queue := [{ frame := .leave, fallen := false }], marks := [] } := rfl

theorem State.queueLeave_ctl (s : State) : s.queueLeave.ctl =
    { s.ctl with leave := .stopped, presence := .stopped, presenceDue := false, leaveQueued := true } := rfl

theorem State.queueLeave_pub (s : State) : s.queueLeave.pub =
    { s.pub with set := Vector.replicate 128 none, refresh := .stopped, scan := .stopped, barred := true } := rfl

theorem State.queueLeave_pubEntry (s : State) (r : Region) : s.queueLeave.pubEntry r = none := by
  rw [State.pubEntry, State.queueLeave_pub, pick_replicate]

theorem State.queueLeave_record (s : State) (r : Region) : s.queueLeave.record r = s.liveRecord r := pick_ofFn _ _

theorem State.queueLeave_entry (s : State) (r : Region) : s.queueLeave.entry r =
    if (s.entry r).release = .queued ∧ s.waiting (.release r) then { s.entry r with release := .idle } else s.entry r :=
  pick_ofFn _ _

/-- The LEAVE frame is queued in LEAVING, behind nothing (R119). -/
theorem State.queueLeave_kept (s : State) (hm : s.ctl.mode = .leaving) : Kept s s.queueLeave where
  pending := s.queueLeave_pending
  mode := by rw [State.queueLeave_ctl]
  image h := by rwa [ImageLaw, State.queueLeave_image]
  bounds h := by
    refine ⟨?_, ?_, ?_, ?_, ?_, ?_, ?_, ?_, ?_, fun r => ?_, fun r c hc => ?_, fun p => ?_⟩
    case refine_10 =>
      rw [State.queueLeave_entry]
      split <;> exact h.staleAge r
    case refine_11 => exact h.claims r c (State.record_of_live (by rwa [← State.queueLeave_record]))
    all_goals simp only [State.queueLeave_cmd, State.queueLeave_parked, State.queueLeave_peer, State.queueLeave_line]
    case refine_4 => simp
    case refine_5 => simp
    exacts [h.notices, h.overflow, h.parked, h.consecutive, h.controlRun, h.attempts, h.statistics, h.roster p]
  leave _ := by
    refine ⟨fun _ => ?_, fun _ => ⟨?_, fun _ => ?_, s.queueLeave_pubEntry, ?_, ?_⟩⟩
    · simp [State.queueLeave_line, State.queueLeave_ctl, State.queueLeave_pub, hm]
    · simp [State.queueLeave_ctl, hm]
    · simp [State.queueLeave_ctl]
    · simp only [State.queueLeave_pub]
    · simp only [State.queueLeave_pub]

theorem State.leaveIfDone_kept (s : State) : Kept s s.leaveIfDone := by
  unfold State.leaveIfDone
  split
  · next h => exact s.queueLeave_kept h.1
  · exact Kept.refl s

/-! ### Conflicts and the loss of a peer -/

theorem State.refuseAll_kept (s : State) (r : Region) (why : RefuseReason) (b : Option Station) (ps : List Station) :
    Kept s (s.refuseAll r why b ps) := Kept.foldl (fun s _ => s.answer_kept _) ps s

theorem State.winConflict_kept (s : State) (r : Region) (rival : Station) : Kept s (s.winConflict r rival) :=
  (s.addFull_kept r).trans (State.notify_kept _ _)

theorem State.yieldRegion_kept (s : State) (r : Region) (rival : Station) (seq : Option Half) :
    Kept s (s.yieldRegion r rival seq) := by
  refine .trans ?_ ((State.notify_kept _ _).trans (State.notify_kept _ _))
  refine .trans ?_ ((State.clearTable_kept _ r).trans (State.refuseAll_kept _ _ _ _ _))
  refine .trans ?_ ((State.fell_kept _ _).trans (State.clearMarks_kept _ _))
  refine .trans ?_ ((State.setServing_kept _ r _).trans (State.unpublish_kept _ r))
  exact s.setEntry_kept r _ fun _ => Nat.zero_le _

theorem State.meetRival_kept (s : State) (r : Region) (rival : Station) (seq : Option Half) :
    Kept s (s.meetRival r rival seq) := by
  unfold State.meetRival
  split
  · exact s.winConflict_kept r rival
  · exact s.yieldRegion_kept r rival seq

theorem State.loseOwner_kept (s : State) (p : Station) (r : Region) : Kept s (s.loseOwner p r) := by
  unfold State.loseOwner
  split
  · exact (s.setEntry_kept r _ (by exact id)).trans (State.toOrphanClaim_kept _ r)
  · exact Kept.refl s

theorem State.releaseDeferred_kept (s : State) (p : Station) (r : Region) : Kept s (s.releaseDeferred p r) := by
  unfold State.releaseDeferred
  split
  · next c hc =>
    split
    · exact (State.changed_kept hc (.inr (Nat.zero_le 3))).trans (State.needClaim_kept _ r)
    · exact Kept.refl s
  · exact Kept.refl s

theorem State.reportLoss_kept (s : State) (p : Station) : Kept s (s.reportLoss p) :=
  (Kept.forRegions (fun r s => s.loseOwner_kept p r) s).trans
    ((State.removeEverywhere_kept _ p).trans (Kept.forRegions (fun r s => s.releaseDeferred_kept p r) _))

end Sys2Proof.Machine

/-! Acts that may change the state of the station. `Moved` is what such an act keeps when it is taken in a receiving state, and
`Lawful` is what a whole command keeps. -/

namespace Sys2Proof.Machine

open Sys2Proof.Safety

/-- Acts of a station in a receiving state: they keep the laws, and a station that stops receiving is quiet. -/
structure Moved (s t : State) : Prop where
  pending : t.pending = s.pending
  image : ImageLaw s → ImageLaw t
  bounds : BoundsLaw s → BoundsLaw t
  leave : LeaveLaw s → LeaveLaw t
  quiet : s.ctl.mode.receives = true → QuietLaw t

/-- Acts that keep the waiting commands and every law but that of ownership. -/
structure Lawful (s t : State) : Prop where
  pending : t.pending = s.pending
  image : ImageLaw s → ImageLaw t
  bounds : BoundsLaw s → BoundsLaw t
  leave : LeaveLaw s → LeaveLaw t
  quiet : QuietLaw s → QuietLaw t

theorem Lawful.refl (s : State) : Lawful s s := ⟨rfl, id, id, id, id⟩

theorem Lawful.trans {s t u : State} (h : Lawful s t) (g : Lawful t u) : Lawful s u :=
  ⟨g.pending.trans h.pending, g.image ∘ h.image, g.bounds ∘ h.bounds, g.leave ∘ h.leave, g.quiet ∘ h.quiet⟩

theorem quietLaw_of_receives {s : State} (h : s.ctl.mode.receives = true) : QuietLaw s := by
  rintro (hm | hm | hm | hm) <;> rw [hm] at h <;> cases h

theorem quiet_of_not_receives {m : Mode} (h : m.receives = false) : m = .reset ∨ m = .config ∨ m = .offline ∨ m = .isolated := by
  revert h
  cases m <;> simp [Mode.receives]

theorem Kept.moved {s t : State} (h : Kept s t) : Moved s t :=
  ⟨h.pending, h.image, h.bounds, h.leave, fun hr => quietLaw_of_receives (by rw [h.mode, hr])⟩

theorem Kept.then {s t u : State} (h : Kept s t) (g : Moved t u) : Moved s u :=
  ⟨g.pending.trans h.pending, g.image ∘ h.image, g.bounds ∘ h.bounds, g.leave ∘ h.leave, fun hr => g.quiet (by rw [h.mode, hr])⟩

theorem Moved.then {s t u : State} (h : Moved s t) (g : Lawful t u) : Moved s u :=
  ⟨g.pending.trans h.pending, g.image ∘ h.image, g.bounds ∘ h.bounds, g.leave ∘ h.leave, g.quiet ∘ h.quiet⟩

/-- A whole command: it is taken in a receiving state, or it leaves a quiet station quiet. -/
theorem Moved.lawful {s t : State} (h : Moved s t) (hq : s.ctl.mode.receives = false → QuietLaw s → QuietLaw t) : Lawful s t :=
  ⟨h.pending, h.image, h.bounds, h.leave, fun hs => by
    cases hr : s.ctl.mode.receives with
    | true => exact h.quiet hr
    | false => exact hq hr hs⟩

theorem Moved.lawful_of_receives {s t : State} (h : Moved s t) (hr : s.ctl.mode.receives = true) : Lawful s t :=
  h.lawful fun hn => by rw [hr] at hn; cases hn

/-! ### Acts that leave a quiet station quiet -/

/-- What the law of quiet stations speaks of, as it stands in two states. -/
structure Still (s t : State) : Prop where
  mode : t.ctl.mode = s.ctl.mode
  role : ∀ r, (t.entry r).role.owns = (s.entry r).role.owns
  pub : t.pub = s.pub
  claims : t.claims = s.claims
  roster : t.roster = s.roster
  line : t.line.queue = s.line.queue ∧ t.line.marks = s.line.marks ∧ t.line.flight = s.line.flight ∧
    t.line.controlRun = s.line.controlRun
  ctl : t.ctl.listen = s.ctl.listen ∧ t.ctl.leave = s.ctl.leave ∧ t.ctl.presence = s.ctl.presence ∧
    t.ctl.presenceDue = s.ctl.presenceDue ∧ t.ctl.backlog = s.ctl.backlog

theorem Still.quiet {s t : State} (h : Still s t) (hs : QuietLaw s) : QuietLaw t := by
  obtain ⟨hmode, hrole, hpub, hclaims, hroster, ⟨hqueue, hmarks, hflight, hrun⟩, hlisten, hleave, hpresence, hdue, hbacklog⟩ := h
  unfold QuietLaw State.pubEntry State.record State.serving State.peer at *
  simpa only [hmode, hrole, hpub, hclaims, hroster, hqueue, hmarks, hflight, hrun, hlisten, hleave, hpresence, hdue, hbacklog] using hs

theorem Kept.lawful_of_still {s t : State} (h : Kept s t) (hs : Still s t) : Lawful s t := h.moved.lawful fun _ => hs.quiet

theorem State.respond_lawful (s : State) (ok : Bool) (d : HostWord) : Lawful s (s.respond ok d) :=
  (s.respond_kept ok d).lawful_of_still ⟨rfl, fun _ => rfl, rfl, rfl, rfl, ⟨rfl, rfl, rfl, rfl⟩, ⟨rfl, rfl, rfl, rfl, rfl⟩⟩

/-- The Command and Notice Unit has no part in the law of quiet stations. -/
theorem Lawful.cmd {s : State} {c : CommandUnit} (h : Kept s { s with cmd := c }) : Lawful s { s with cmd := c } :=
  h.lawful_of_still ⟨rfl, fun _ => rfl, rfl, rfl, rfl, ⟨rfl, rfl, rfl, rfl⟩, ⟨rfl, rfl, rfl, rfl, rfl⟩⟩

theorem State.setResult_lawful (s : State) (x : Result) : Lawful s (s.setResult x) := Lawful.cmd (s.setResult_kept x)
theorem State.latchDone_lawful (s : State) : Lawful s s.latchDone := Lawful.cmd s.latchDone_kept
theorem State.storeCommand_lawful (s : State) (code : Byte) (arg : Option Byte) : Lawful s (s.storeCommand code arg) :=
  Lawful.cmd (s.storeCommand_kept code arg)

/-- Carrier, the burst, the rotation counter and the statistics have no part in the laws of the queue. -/
theorem Lawful.withLine {s : State} {l : LineUnit} (hb : LineBounds s.line → LineBounds l)
    (hl : l.queue = s.line.queue ∧ l.marks = s.line.marks ∧ l.flight = s.line.flight ∧ l.controlRun = s.line.controlRun) :
    Lawful s { s with line := l } :=
  (Kept.withLine s l hb fun _ h => by rwa [LeaveOnly, hl.1, hl.2.1]).lawful_of_still
    ⟨rfl, fun _ => rfl, rfl, rfl, rfl, hl, ⟨rfl, rfl, rfl, rfl, rfl⟩⟩

theorem State.foundBurst_lawful (s : State) (b : Burst) : Lawful s (s.foundBurst b) :=
  Lawful.withLine (fun h => { h with }) ⟨rfl, rfl, rfl, rfl⟩

theorem State.countGood_kept (s : State) : Kept s s.countGood :=
  Kept.withLine s _ (fun h => { h with statistics := ⟨satSucc_le _, h.statistics.2⟩ }) fun _ h => h

/-- The LEAVE frame is queued in LEAVING only. -/
theorem State.leaveIfDone_lawful (s : State) : Lawful s s.leaveIfDone := by
  refine s.leaveIfDone_kept.moved.lawful fun hr hs => ?_
  have : s.leaveIfDone = s := if_neg fun h => by rw [h.1] at hr; cases hr
  rwa [this]

/-! ### Going down -/

theorem noticed_bounds (ns : List Notice) (ticks : Half) {c : CommandUnit} (h : c.notices.length ≤ 32 ∧ c.overflow ≤ 65535) :
    (noticed ns ticks c).notices.length ≤ 32 ∧ (noticed ns ticks c).overflow ≤ 65535 := by
  obtain ⟨h1, h2⟩ := h
  unfold noticed
  constructor
  · simp only [List.length_append, List.length_take]
    omega
  · dsimp only
    split_ifs <;> omega

/-- A station that went down is quiet (R38, R69, R104, R123, R175). -/
theorem wentDown_quiet {m : Mode} {why : Cause} {lost : LostDetail} {s t : State} (h : WentDown m why lost s t) : QuietLaw t := by
  intro _
  obtain ⟨hpub, -, hrefresh, hscan, -⟩ := h.pub
  obtain ⟨hclaims, htable⟩ := h.claims
  have hown : ∀ r, (t.entry r).role.owns = false := fun r => by
    cases ho : (s.entry r).role.owns with
    | true => rw [h.owned r ho]; rfl
    | false => rw [h.others r ho]; exact ho
  refine ⟨fun r => ⟨hown r, hpub r, (hclaims r).1, (hclaims r).2⟩, htable, ?_, ?_, ?_, ?_, hrefresh, hscan, ?_, ?_, ?_, ?_, ?_,
    fun p => by rw [h.roster p]⟩
  all_goals simp only [h.line, h.ctl]

/-- The entry to ISOLATED or OFFLINE keeps the laws. -/
theorem wentDown_moved {m : Mode} {why : Cause} {lost : LostDetail} {s t : State} (h : WentDown m why lost s t)
    (hm : m = .offline ∨ m = .isolated) : Moved s t where
  pending := h.frame.2.2
  image hi := by rw [ImageLaw, h.frame.1]; exact hi
  bounds hb := by
    obtain ⟨hn, ho⟩ := noticed_bounds (downNotices m why lost s) s.ctl.ticks ⟨hb.notices, hb.overflow⟩
    refine ⟨by rwa [h.cmd], by rwa [h.cmd], ?_, ?_, ?_, ?_, ?_, ?_, ?_, fun r => ?_, fun r c hc => ?_, fun p => ?_⟩
    · rw [h.parked]; exact (List.length_filter_le _ _).trans hb.parked
    · simp [h.line]
    · simp [h.line]
    · rw [h.line]; exact hb.consecutive
    · simp [h.line]
    · simp [h.line]
    · rw [h.line]; exact hb.statistics
    · cases hown : (s.entry r).role.owns with
      | true => rw [h.owned r hown]; exact hb.staleAge r
      | false => rw [h.others r hown]; exact hb.staleAge r
    · rw [(h.claims.1 r).1] at hc; cases hc
    · rw [h.roster p]; exact hb.roster p
  leave _ := by
    obtain ⟨hpub, -, hrefresh, hscan, -⟩ := h.pub
    refine ⟨fun hq => (by rw [h.ctl] at hq; cases hq), fun _ => ⟨?_, ?_, hpub, hrefresh, hscan⟩⟩
    · rw [h.ctl]; rcases hm with rfl | rfl <;> simp
    · rw [h.ctl]; rcases hm with rfl | rfl <;> simp
  quiet _ := wentDown_quiet h

theorem State.isolate_moved (s : State) (c : Cause) : Moved s (s.isolate c) := wentDown_moved (State.goDown_down _ _ _ s) (.inr rfl)
theorem State.goOffline_moved (s : State) : Moved s s.goOffline := wentDown_moved (State.goDown_down _ _ _ s) (.inl rfl)

theorem State.clash_moved (s : State) : Moved s s.clash := by
  unfold State.clash
  split
  · exact wentDown_moved (State.goDown_down _ _ _ s) (.inl rfl)
  · exact wentDown_moved (State.goDown_down _ _ _ s) (.inl rfl)
  · exact s.isolate_moved _
  · exact s.isolate_moved _
  all_goals exact (Kept.refl s).moved

/-! ### Reset -/

theorem State.pinReset_lawful (s : State) : Lawful s s.pinReset :=
  ⟨rfl, fun _ => imageWf_reset, fun _ => { boundsLaw_reset with }, fun _ => { leaveLaw_reset with }, fun _ => quietLaw_reset⟩

theorem State.leavePinReset_lawful (s : State) (straps : Station) : Lawful s (s.leavePinReset straps) := by
  unfold State.leavePinReset
  split
  · exact Lawful.refl s
  · exact ⟨rfl, fun _ => imageWf_reset, fun _ => { boundsLaw_reset with }, fun _ => { leaveLaw_reset with },
      fun _ => quietLaw_reset⟩

theorem State.restart_lawful (s : State) (straps : Station) : Lawful s (s.restart straps) :=
  ⟨rfl, fun _ => imageWf_reset, fun _ => { boundsLaw_reset with }, fun _ =>
    { queued := fun h => by cases h
      barred := fun _ => ⟨by simp [State.restart, Controller.reset], by simp [State.restart, Controller.reset],
        State.reset_pubEntry, rfl, rfl⟩ }, fun _ => quietLaw_reset⟩

/-! ### Changes of the station state -/

/-- A station that is not leaving has queued no LEAVE frame. -/
theorem leaveLaw_notQueued {s : State} (h : LeaveLaw s) (hm : s.ctl.mode ≠ .leaving) : s.ctl.leaveQueued = false := by
  cases hq : s.ctl.leaveQueued with
  | false => rfl
  | true => exact absurd (h.queued hq).1 hm

/-- Where no LEAVE frame has been queued and additions are not barred, the laws of leaving ask nothing. -/
theorem leaveLaw_free {s : State} (hq : s.ctl.leaveQueued = false) (hb : s.pub.barred = false) : LeaveLaw s :=
  ⟨fun h => (by rw [hq] at h; cases h), fun h => (by rw [hb] at h; cases h)⟩

theorem State.transition_bounds (s : State) (m : Mode) (c : Cause) (h : BoundsLaw s) : BoundsLaw (s.transition m c) :=
  (State.notify_kept _ _).bounds { h with }

/-- Between two states that are neither ACTIVE nor LEAVING the laws of leaving go on. -/
theorem State.transition_leave (s : State) (m : Mode) (c : Cause) (hs : s.ctl.mode ≠ .leaving) (hm : m ≠ .active ∧ m ≠ .leaving)
    (h : LeaveLaw s) : LeaveLaw (s.transition m c) := by
  rw [State.transition_eq]
  refine ⟨fun hq => ?_, fun hb => ⟨hm.1, fun hl => absurd hl hm.2, (h.barred hb).2.2⟩⟩
  exact absurd (h.queued (show s.ctl.leaveQueued = true from hq)).1 hs

theorem State.clearingEnds_lawful (s : State) : Lawful s s.clearingEnds := by
  unfold State.clearingEnds
  split
  · next h =>
    refine ⟨by simp, fun hi => by rwa [ImageLaw, State.transition_image], s.transition_bounds _ _,
      s.transition_leave _ _ (by simp [h.1]) (by simp), fun hq _ => ?_⟩
    rw [State.transition_eq]
    exact hq (.inl h.1)
  · exact Lawful.refl s

end Sys2Proof.Machine

/-! Every command keeps the laws of bounds, of quiet stations and of leaving, block by block: O56, O58 and O59 from
`exec_lawful`. -/

namespace Sys2Proof.Machine

open Sys2Proof.Safety

/-! ### Time -/

theorem DirEntry.tick_staleAge (b : Bool) (e : DirEntry) (h : e.staleAge ≤ 65535) : (e.tick b).staleAge ≤ 65535 := by
  unfold DirEntry.tick
  dsimp only
  split
  · exact satSucc_le _
  · exact h

theorem State.tick_running {s : State} (h : s.port.nrstHigh = true) : s.tick = { s with
    dir := s.dir.map (DirEntry.tick s.ctl.mode.receives)
    pub := { s.pub with refresh := s.pub.refresh.tick, scan := s.pub.scan.tick }
    claims := { s.claims with
      records := s.claims.records.map (Option.map ClaimRecord.tick)
      serve := s.claims.serve.map fun e => { e with redirect := e.redirect.tick } }
    roster := s.roster.map fun e => { e with silence := e.silence.tick }
    ctl := { s.ctl with ticks := s.ctl.ticks + 1, listen := s.ctl.listen.tick, leave := s.ctl.leave.tick
                        presence := s.ctl.presence.tick } } := if_pos h

/-- A tick counts no claim and no peer, and a stopped timer stays stopped. -/
theorem State.tick_lawful (s : State) : Lawful s s.tick := by
  cases hn : s.port.nrstHigh with
  | false => rw [show s.tick = s from if_neg (by simp [hn])]; exact Lawful.refl s
  | true =>
    rw [State.tick_running hn]
    refine ⟨rfl, id, fun h => { h with staleAge := fun r => ?_, claims := fun r c hc => ?_, roster := fun p => ?_ },
      fun h => ⟨fun hq => ?_, fun hb => ?_⟩,
      fun h hm => ?_⟩
    · rw [State.entry, pick_map]; exact DirEntry.tick_staleAge _ _ (h.staleAge r)
    · rw [State.record, pick_map] at hc
      obtain ⟨d, hd, rfl⟩ := Option.map_eq_some_iff.1 hc
      exact h.claims r d hd
    · rw [State.peer, pick_map]; exact h.roster p
    · obtain ⟨h1, h2, h3, h4, h5, h6, h7⟩ := h.queued hq
      exact ⟨h1, h2, h3, h4, by simp [h5, Timer.tick], by simp [h6, Timer.tick], h7⟩
    · obtain ⟨h1, h2, h3, h4, h5⟩ := h.barred hb
      exact ⟨h1, h2, h3, by simp [h4, Timer.tick], by simp [h5, Timer.tick]⟩
    · obtain ⟨h1, h2, h3, h4, h5, h6, h7, h8, h9, h10, h11, h12, h13, h14⟩ := h hm
      refine ⟨fun r => ?_, h2, h3, h4, h5, h6, by simp [h7, Timer.tick], by simp [h8, Timer.tick], by simp [h9, Timer.tick],
        by simp [h10, Timer.tick], by simp [h11, Timer.tick], h12, h13, fun p => ?_⟩
      · obtain ⟨ho, hp, hr, hs⟩ := h1 r
        simp only [State.entry, State.pubEntry, State.record, State.serving, pick_map] at *
        simp [ho, hp, hr, hs, DirEntry.tick, Timer.tick]
      · simp only [State.peer, pick_map] at *
        simp [h14 p, Timer.tick]

/-- The Station Controller changed outside the reach of the laws of leaving. -/
theorem Kept.withCtl (s : State) (c : Controller) (hm : c.mode = s.ctl.mode) (hq : c.leaveQueued = s.ctl.leaveQueued)
    (ht : LeaveLaw s → s.ctl.leaveQueued = true → s.ctl.leave = .stopped → s.ctl.presence = .stopped →
      s.ctl.presenceDue = false → c.leave = .stopped ∧ c.presence = .stopped ∧ c.presenceDue = false) :
    Kept s { s with ctl := c } :=
  ⟨rfl, hm, id, fun h => { h with }, fun h =>
    ⟨fun hl => by
      obtain ⟨h1, h2, h3, h4, h5, h6, h7, h8⟩ := h.queued (hq ▸ hl)
      obtain ⟨h5, h6, h7⟩ := ht h (hq ▸ hl) h5 h6 h7
      exact ⟨hm ▸ h1, h2, h3, h4, h5, h6, h7, h8⟩,
    fun hb => by
      obtain ⟨h1, h2, h3⟩ := h.barred hb
      exact ⟨hm ▸ h1, fun hl => hq ▸ h2 (hm ▸ hl), h3⟩⟩⟩

/-- The Station Controller changed in what no law of leaving speaks of. -/
theorem Kept.aside (s : State) (c : Controller) (h : c.mode = s.ctl.mode ∧ c.leaveQueued = s.ctl.leaveQueued ∧
    c.leave = s.ctl.leave ∧ c.presence = s.ctl.presence ∧ c.presenceDue = s.ctl.presenceDue) : Kept s { s with ctl := c } := by
  obtain ⟨hm, hq, hl, hp, hd⟩ := h
  exact Kept.withCtl s c hm hq fun _ _ h1 h2 h3 => ⟨hl.trans h1, hp.trans h2, hd.trans h3⟩

theorem State.listenExpires_lawful (s : State) : Lawful s s.listenExpires := by
  unfold State.listenExpires
  split
  · next h =>
    refine ((State.hand_kept _ .join).moved.lawful_of_receives (by simp [State.transition_eq, Mode.receives])) |> Lawful.trans ?_
    refine ⟨by simp, fun hi => by rwa [ImageLaw, State.transition_image],
      fun hb => State.transition_bounds _ _ _ { hb with }, fun hl => State.transition_leave _ _ _ (by simp [h.1]) (by simp) ?_,
      fun _ => quietLaw_of_receives (by simp [State.transition_eq, Mode.receives])⟩
    exact (Kept.aside s _ (by exact ⟨rfl, rfl, rfl, rfl, rfl⟩)).leave hl
  · exact Lawful.refl s

theorem State.leaveExpires_lawful (s : State) : Lawful s s.leaveExpires := by
  unfold State.leaveExpires
  split
  · next h => exact (s.queueLeave_kept h.1).moved.lawful_of_receives (by simp [h.1, Mode.receives])
  · exact Lawful.refl s

theorem State.presenceExpires_lawful (s : State) : Lawful s s.presenceExpires := by
  unfold State.presenceExpires
  split
  · next h =>
    refine (Kept.withCtl s _ (by rfl) (by rfl) fun _ _ _ hp _ => ?_).moved.lawful fun hr hs => ?_
    · rw [hp] at h; cases h
    · obtain ⟨-, -, -, -, -, -, -, -, -, -, hp, -⟩ := hs (quiet_of_not_receives hr)
      rw [hp] at h; cases h
  · exact Lawful.refl s

/-- The Publication Unit's timers do not run while additions are barred, nor in a quiet station. -/
theorem quietLaw_stopped {s : State} (hs : QuietLaw s) (hr : s.ctl.mode.receives = false) :
    s.pub.refresh = .stopped ∧ s.pub.scan = .stopped := by
  obtain ⟨-, -, -, -, -, -, hrefresh, hscan, -⟩ := hs (quiet_of_not_receives hr)
  exact ⟨hrefresh, hscan⟩

theorem State.addFullAll_refresh (s : State) : s.addFullAll.pub.refresh = s.pub.refresh := by
  unfold State.addFullAll
  refine State.forRegions_keeps (P := fun t => t.pub.refresh = s.pub.refresh) (fun r t h => ?_) s rfl
  rw [State.addFull_added, added, fullyAdded]
  split_ifs <;> exact h

theorem State.refreshExpires_lawful (s : State) : Lawful s s.refreshExpires := by
  unfold State.refreshExpires
  split
  · next h =>
    refine (s.addFullAll_kept.trans (Kept.pub _ _ (by dsimp only) fun _ _ hstop _ => ?_)).moved.lawful fun hr hs => ?_
    · rw [State.addFullAll_refresh] at hstop; rw [hstop] at h; cases h
    · rw [(quietLaw_stopped hs hr).1] at h; cases h
  · exact Lawful.refl s

theorem State.scanRegion_kept (s : State) (r : Region) : Kept s (s.scanRegion r) := by
  unfold State.scanRegion
  split
  · split
    · exact (s.answer_kept _).trans (State.setEntry_kept _ r _ fun _ => Nat.zero_le _)
    · exact s.answer_kept _
  · exact Kept.refl s

theorem State.forRegions_scanRegion_scan (s : State) : (s.forRegions State.scanRegion).pub.scan = s.pub.scan := by
  refine State.forRegions_keeps (P := fun t => t.pub.scan = s.pub.scan) (fun r t h => ?_) s rfl
  unfold State.scanRegion
  split_ifs <;> simp [h]

theorem State.scanExpires_lawful (s : State) : Lawful s s.scanExpires := by
  unfold State.scanExpires
  split
  · next h =>
    have hk := Kept.forRegions (fun r s => s.scanRegion_kept r) s
    refine (hk.trans (Kept.pub _ _ (by dsimp only) fun _ _ _ hstop => ?_)).moved.lawful fun hr hs => ?_
    · rw [State.forRegions_scanRegion_scan] at hstop; rw [hstop] at h; cases h
    · rw [(quietLaw_stopped hs hr).2] at h; cases h
  · exact Lawful.refl s

/-- A region is served in ACTIVE and LEAVING only (R62, R63). -/
theorem State.serve_lawful (s : State) (r : Region) : Lawful s (s.serve r) := by
  refine (s.serve_kept r).moved.lawful fun hr hs => ?_
  have hn : s.servable r = false := by
    unfold State.servable
    cases hm : s.ctl.mode <;> simp_all [Mode.receives]
  rwa [State.serve, if_neg (by simp [hn])]

theorem State.tenureExpires_lawful (s : State) (r : Region) : Lawful s (s.tenureExpires r) := by
  unfold State.tenureExpires
  split
  · refine Lawful.trans ?_ (State.serve_lawful _ r)
    refine (s.setEntry_kept r _ (by exact id)).lawful_of_still ⟨rfl, fun q => ?_, rfl, rfl, rfl, ⟨rfl, rfl, rfl, rfl⟩, ⟨rfl, rfl, rfl, rfl, rfl⟩⟩
    rw [State.setEntry_entry]
    split
    · next h => rw [h]
    · rfl
  · exact Lawful.refl s

/-- A quiet station holds no claim record. -/
theorem quietLaw_noRecord {s : State} (hs : QuietLaw s) (hr : s.ctl.mode.receives = false) (r : Region) :
    s.record r = none ∧ s.liveRecord r = none := by
  have h := ((hs (quiet_of_not_receives hr)).1 r).2.2.1
  exact ⟨h, by simp [State.liveRecord, State.closing, h]⟩

/-- An act on a live record alone leaves a quiet station as it is. -/
theorem Kept.lawful_of_record {s t : State} {r : Region} (h : Kept s t) (hn : s.liveRecord r = none → t = s) : Lawful s t :=
  h.moved.lawful fun hr hs => by rwa [hn (quietLaw_noRecord hs hr r).2]

theorem State.answerExpires_lawful (s : State) (r : Region) : Lawful s (s.answerExpires r) := by
  refine Kept.lawful_of_record (r := r) ?_ fun hn => by simp [State.answerExpires, hn]
  unfold State.answerExpires
  split
  · next c hc =>
    split_ifs
    · exact (State.changed_kept hc (.inl (by exact le_rfl))).trans (State.needClaim_kept _ r)
    · exact s.exhaust_kept r
    · exact Kept.refl s
  · exact Kept.refl s

theorem State.patienceExpires_lawful (s : State) (r : Region) : Lawful s (s.patienceExpires r) := by
  refine Kept.lawful_of_record (r := r) ?_ fun hn => by simp [State.patienceExpires, hn]
  unfold State.patienceExpires
  split
  · split
    · exact s.failRecord_kept r _
    · exact Kept.refl s
  · exact Kept.refl s

theorem State.orphanWaitExpires_lawful (s : State) (r : Region) : Lawful s (s.orphanWaitExpires r) := by
  refine Kept.lawful_of_record (r := r) ?_ fun hn => by simp [State.orphanWaitExpires, hn]
  unfold State.orphanWaitExpires
  split
  · next c hc =>
    split
    · split
      · exact (State.changed_kept hc (.inl (by exact le_rfl))).trans (State.hand_kept _ _)
      · split
        · exact (State.changed_kept hc (.inl (by exact le_rfl))).trans (State.needClaim_kept _ r)
        · exact s.failRecord_kept r _
      all_goals exact Kept.refl s
    · exact Kept.refl s
  · exact Kept.refl s

theorem State.redirectExpires_lawful (s : State) (r : Region) : Lawful s (s.redirectExpires r) := by
  unfold State.redirectExpires
  split
  · next h =>
    refine (s.setServing_kept r _).moved.lawful fun hr hs => ?_
    have h1 := ((hs (quiet_of_not_receives hr)).1 r).2.2.2
    rw [h1] at h; cases h
  · exact Lawful.refl s

theorem State.dropPeer_kept (s : State) (p : Station) : Kept s (s.dropPeer p) := s.setPeer_kept p _ id

theorem State.silenceExpires_lawful (s : State) (p : Station) : Lawful s (s.silenceExpires p) := by
  unfold State.silenceExpires
  split
  · next h =>
    refine ((s.dropPeer_kept p).trans ((State.notify_kept _ _).trans (State.reportLoss_kept _ p))).moved.lawful fun hr hs => ?_
    obtain ⟨-, -, -, -, -, -, -, -, -, -, -, -, -, hp⟩ := hs (quiet_of_not_receives hr)
    rw [hp p] at h; cases h
  · exact Lawful.refl s

theorem State.takeHome_lawful (s : State) : Lawful s s.takeHome := by
  unfold State.takeHome
  split
  · next r rest hm _ =>
    have hr : s.ctl.mode.receives = true := by simp [hm, Mode.receives]
    have hleft : Kept s { s with ctl := { s.ctl with backlog := rest } } :=
      Kept.aside s _ (by exact ⟨rfl, rfl, rfl, rfl, rfl⟩)
    dsimp only
    split_ifs
    · exact hleft.moved.lawful_of_receives hr
    · exact (hleft.trans (State.requestClaim_kept _ r _)).moved.lawful_of_receives hr
    · exact Lawful.refl s
  · exact Lawful.refl s

/-! ### Host accesses -/

theorem State.writeOutsideReset_lawful (s : State) (lanes : BitVec 4) {act : State → State} (h : Lawful s (act s)) :
    Lawful s (s.writeOutsideReset lanes act) := by
  unfold State.writeOutsideReset
  split
  · exact h.trans (State.respond_lawful _ _ _)
  · exact s.respond_lawful _ _

theorem State.popNotice_lawful (s : State) : Lawful s s.popNotice :=
  Lawful.cmd (Kept.cmd s _ fun ⟨h1, h2⟩ => ⟨by simp only [List.length_tail]; omega, h2⟩)

theorem State.writeFlags_lawful (s : State) (lanes : BitVec 4) (data : HostWord) : Lawful s (s.writeFlags lanes data) := by
  unfold State.writeFlags
  split
  · exact Lawful.cmd (Kept.cmd s _ id)
  · exact Lawful.refl s

theorem State.writeMask_lawful (s : State) (lanes : BitVec 4) (data : HostWord) : Lawful s (s.writeMask lanes data) := by
  unfold State.writeMask
  split
  · exact Lawful.cmd (Kept.cmd s _ id)
  · exact Lawful.refl s

theorem State.writeRegister_lawful (s : State) (word : BitVec 13) (lanes : BitVec 4) (data : HostWord) :
    Lawful s (s.writeRegister word lanes data) := by
  unfold State.writeRegister
  split
  · exact (Lawful.cmd (Kept.cmd s _ (by exact id))).trans (State.respond_lawful _ _ _)
  · exact s.respond_lawful _ _

theorem State.writeConfig_lawful (s : State) (word : BitVec 13) (lanes : BitVec 4) (data : HostWord) :
    Lawful s (s.writeConfig word lanes data) := by
  unfold State.writeConfig
  split
  · refine Lawful.trans ?_ (State.respond_lawful _ _ _)
    exact (Kept.aside s _ (by exact ⟨rfl, rfl, rfl, rfl, rfl⟩)).lawful_of_still
      ⟨rfl, fun _ => rfl, rfl, rfl, rfl, ⟨rfl, rfl, rfl, rfl⟩, ⟨rfl, rfl, rfl, rfl, rfl⟩⟩
  · exact s.respond_lawful _ _

theorem wordOffset_lt (word : BitVec 13) : wordOffset word + 3 < 128 := by unfold wordOffset; omega

theorem State.applyWrite_kept (s : State) (r : Region) (word : BitVec 13) (lanes : BitVec 4) (data : HostWord) :
    Kept s (s.applyWrite r word lanes data) :=
  (Kept.withImage s _ (imageWf_writeLanes s.image r _ lanes data (wordOffset_lt word))).trans (State.addSpan_kept _ _ _ _)

theorem State.park_kept (s : State) (r : Region) (word : BitVec 13) (first len : Nat) (lanes : BitVec 4) (data : HostWord)
    (h : s.parked.length < 16) : Kept s (s.park r word first len lanes data) :=
  Kept.parked s _ fun _ => by simpa using h

theorem State.parkWrite_kept (s : State) (r : Region) (word : BitVec 13) (first len : Nat) (lanes : BitVec 4) (data : HostWord) :
    Kept s (s.parkWrite r word first len lanes data) := by
  unfold State.parkWrite
  split
  · exact s.respond_kept _ _
  · next hp =>
    have hp : s.parked.length < 16 := Nat.lt_of_not_le hp
    split_ifs
    · exact (s.park_kept r word first len lanes data hp).trans (State.respond_kept _ _ _)
    · exact (s.requestClaim_kept r _).trans ((State.park_kept _ r word first len lanes data (by simpa using hp)).trans
        (State.respond_kept _ _ _))
    · exact s.respond_kept _ _

theorem State.windowWrite_lawful (s : State) (word : BitVec 13) (lanes : BitVec 4) (data : HostWord) :
    Lawful s (s.windowWrite word lanes data) := by
  unfold State.windowWrite
  split
  · exact s.respond_lawful _ _
  · next hm =>
    have hm : s.ctl.mode = .active := by simpa using hm
    refine Moved.lawful_of_receives (Kept.moved ?_) (by simp [hm, Mode.receives])
    have herror := s.respond_kept false 0
    split
    · split
      · exact herror
      · split
        · exact herror
        · split
          · exact herror
          · exact (s.applyWrite_kept _ word lanes data).trans (State.respond_kept _ _ _)
        · split
          · exact s.parkWrite_kept _ word _ _ lanes data
          · exact herror
        · split
          · exact s.parkWrite_kept _ word _ _ lanes data
          · exact herror
    · exact herror

/-! ### Commands -/

theorem State.command_lawful (s : State) (code : Byte) (arg : Option Byte) {take : State → State}
    (h : ∀ u, Lawful u (take u)) : Lawful s (s.command code arg take) := by
  have hs := s.storeCommand_lawful code arg
  unfold State.command
  dsimp only
  split
  · exact hs.trans ((State.setResult_lawful _ _).trans (State.respond_lawful _ _ _))
  · exact hs.trans ((State.latchDone_lawful _).trans ((h _).trans (State.respond_lawful _ _ _)))

/-- A region command acts in ACTIVE. -/
theorem State.regionCommand_lawful {act : Region → State → State} (h : ∀ r u, Kept u (act r u)) (s : State) :
    Lawful s (s.regionCommand act) := by
  unfold State.regionCommand
  split
  · exact s.setResult_lawful _
  · next hm =>
    have hm : s.ctl.mode = .active := by simpa using hm
    split
    · exact (h _ s).moved.lawful_of_receives (by simp [hm, Mode.receives])
    · exact s.setResult_lawful _

theorem State.onOwned_kept {act : Region → State → State} (h : ∀ r u, Kept u (act r u)) (r : Region) (s : State) :
    Kept s (State.onOwned act r s) := by
  unfold State.onOwned
  split
  · exact (h r s).trans (State.setResult_kept _ _)
  · exact s.setResult_kept _

theorem State.claimRegion_kept (r : Region) (s : State) : Kept s (s.claimRegion r) := by
  unfold State.claimRegion
  split_ifs
  · exact s.setResult_kept _
  · exact (s.requestClaim_kept r _).trans (State.setResult_kept _ _)
  · exact s.setResult_kept _

theorem State.withdrawClaim_kept (r : Region) (s : State) : Kept s (s.withdrawClaim r) := by
  unfold State.withdrawClaim
  split
  · exact (s.failRecord_kept r _).trans (State.setResult_kept _ _)
  · exact s.setResult_kept _

theorem State.forceOut_kept (r : Region) (s : State) : Kept s (s.forceOut r) := by
  have h : Kept s ((s.setEntry r { s.entry r with held := false }).setServing r
      { (s.setEntry r { s.entry r with held := false }).serving r with forced := true }) :=
    (s.setEntry_kept r _ (by exact id)).trans (State.setServing_kept _ r _)
  unfold State.forceOut
  dsimp only
  split
  · exact h.trans (State.requestRelease_kept _ r)
  · exact h.trans (State.serve_kept _ r)

theorem State.hold_kept (r : Region) (s : State) : Kept s (s.hold r) := s.setEntry_kept r _ id

theorem State.unhold_kept (r : Region) (s : State) : Kept s (s.unhold r) :=
  (s.setEntry_kept r _ (by exact id)).trans (State.serve_kept _ r)

theorem State.join_lawful (s : State) : Lawful s s.join := by
  unfold State.join
  split
  · exact s.setResult_lawful _
  · next hm =>
    have hm : s.ctl.mode = .config := by simpa using hm
    split
    · exact s.setResult_lawful _
    · refine ⟨by simp, fun hi => ?_, fun hb => ?_, fun hl => ?_,
        fun _ => quietLaw_of_receives (by simp [State.transition_eq, Mode.receives])⟩
      · simpa [ImageLaw] using hi
      · exact { State.transition_bounds (s.setResult .done) .listen .command ((s.setResult_kept .done).bounds hb) with }
      · have ht := State.transition_leave (s.setResult .done) .listen .command (by simp [hm]) (by simp)
          ((s.setResult_kept .done).leave hl)
        exact (Kept.aside _ _ (by exact ⟨rfl, rfl, rfl, rfl, rfl⟩)).leave ht

/-- The entry to LEAVING, where no LEAVE frame is queued and additions are not barred. -/
theorem State.enterLeaving_moved (s : State) (hm : s.ctl.mode = .active) : Moved s s.enterLeaving := by
  have hu : Moved s { s.transition .leaving .command with
      ctl := { (s.transition .leaving .command).ctl with leave := Timer.start Config.leaveLimit, backlog := [] } } := by
    refine ⟨by simp, fun hi => ?_, fun hb => ?_, fun hl => ?_, fun _ => quietLaw_of_receives ?_⟩
    · simpa [ImageLaw] using hi
    · exact { State.transition_bounds s .leaving .command hb with }
    · have hq := leaveLaw_notQueued hl (by simp [hm])
      have hb : s.pub.barred = false := by
        cases hb : s.pub.barred with
        | false => rfl
        | true => exact absurd hm (hl.barred hb).1
      exact leaveLaw_free (by simpa [State.transition_eq] using hq) (by simpa using hb)
    · simp [State.transition_eq, Mode.receives]
  have hk : ∀ u : State, Kept u ((((u.forRegions fun r s => s.failRecord r .leave).forRegions State.serve).forRegions
      State.releaseIfLeaving).leaveIfDone) := fun u =>
    (Kept.forRegions (fun r s => s.failRecord_kept r _) u).trans ((Kept.forRegions (fun r s => s.serve_kept r) _).trans
      ((Kept.forRegions (fun r s => s.releaseIfLeaving_kept r) _).trans (State.leaveIfDone_kept _)))
  exact hu.then ((hk _).moved.lawful_of_receives (by simp [State.transition_eq, Mode.receives]))

theorem State.leaveCell_lawful (s : State) : Lawful s s.leaveCell := by
  unfold State.leaveCell
  split
  · next hm =>
    exact ((s.enterLeaving_moved hm).then (State.setResult_lawful _ _)).lawful_of_receives (by simp [hm, Mode.receives])
  · exact s.setResult_lawful _

theorem State.restartStation_lawful (straps : Station) (s : State) : Lawful s (s.restartStation straps) := by
  unfold State.restartStation
  split
  · exact s.restart_lawful straps
  · exact s.restart_lawful straps
  · exact s.restart_lawful straps
  all_goals exact s.setResult_lawful _

end Sys2Proof.Machine

/-! The events of the line and the received frames keep the laws, and with them every command: O56, O58 and O59. -/

namespace Sys2Proof.Machine

open Sys2Proof.Safety

/-! ### Carrier and the scheduler -/

/-- An act on the frame in flight alone leaves a quiet station as it is. -/
theorem Moved.lawful_of_flight {s t : State} (h : Moved s t) (hn : s.line.flight = none → t = s) : Lawful s t :=
  h.lawful fun hr hs => by
    obtain ⟨-, -, -, -, hf, -⟩ := hs (quiet_of_not_receives hr)
    rwa [hn hf]

theorem State.carrierAppears_lawful (s : State) : Lawful s s.carrierAppears := by
  unfold State.carrierAppears
  split
  · exact Lawful.refl s
  · have hc : Lawful s { s with line := { s.line with carrier := true, burst := .unknown } } :=
      Lawful.withLine (fun h => { h with }) ⟨rfl, rfl, rfl, rfl⟩
    refine hc.trans ((Kept.mapFlight _ (fun f => { f with wait := none }) fun _ => rfl).moved.lawful_of_flight fun hn => ?_)
    dsimp only at hn ⊢
    rw [hn]
    rfl

theorem State.startWait_lawful (s : State) : Lawful s s.startWait :=
  s.startWait_kept.moved.lawful_of_flight fun hn => by
    unfold State.startWait
    rw [hn]
    change ({ s with line := { s.line with flight := none } } : State) = s
    rw [← hn]

theorem State.lineBecomesIdle_lawful (s : State) : Lawful s s.lineBecomesIdle := by
  unfold State.lineBecomesIdle
  split
  · exact Lawful.refl s
  · refine Lawful.trans ?_ (State.startWait_lawful _)
    exact Lawful.withLine (fun h => { h with }) ⟨rfl, rfl, rfl, rfl⟩

theorem State.runAfterControl_le (s : State) : s.runAfterControl ≤ 4 := by
  unfold State.runAfterControl Config.runLimit
  split <;> omega

theorem State.takeOffer_kept (s : State) (r : Region) : Kept s (s.takeOffer r) := by
  unfold State.takeOffer
  split
  · refine .trans ?_ (State.startWait_kept _)
    refine (s.setPub_kept r none fun _ => rfl).trans (.trans
      (Kept.pub _ { (s.setPub r none).pub with pointer := r } rfl ?_) (Kept.withLine _ _ ?_ ?_))
    · exact fun _ h1 h2 h3 => ⟨h1, h2, h3⟩
    · exact fun h => { h with controlRun := Nat.zero_le 4, attempts := fun f hf => by cases hf; simp [newFlight] }
    · exact fun _ h => h
  · exact Kept.refl s

theorem State.takePresence_kept (s : State) : Kept s s.takePresence := by
  unfold State.takePresence
  refine .trans ?_ (State.startWait_kept _)
  refine (Kept.withCtl s { s.ctl with presenceDue := false } rfl rfl fun _ _ h1 h2 _ => ⟨h1, h2, rfl⟩).trans (Kept.withLine _ _ ?_ ?_)
  · exact fun h => { h with controlRun := s.runAfterControl_le, attempts := fun f hf => by cases hf; simp [newFlight] }
  · exact fun _ h => h

/-- The mark let into the queue, and its record freed where it is a WITHDRAW's (R54, R167). -/
theorem State.admitMark_eq (s : State) : s.admitMark = { s with
    line := admitted s.line
    claims := { s.claims with records := match s.line.marks.head? with
      | some (.withdraw r _) => put s.claims.records r none
      | _ => s.claims.records } } := by
  unfold State.admitMark admitted
  rcases s.line.marks with _ | ⟨m, ms⟩
  · rfl
  · cases m <;> rfl

/-- The head of the queue in flight. -/
def headTaken (e : QEntry) (rest : List QEntry) (run : Nat) (l : LineUnit) : LineUnit :=
  { l with queue := rest, flight := some (newFlight (.control e.frame) none e.fallen), controlRun := run }

/-- A mark waits behind a full queue only, so its frame finds the place that the head left. -/
theorem lineBounds_headTaken {l : LineUnit} {e : QEntry} {rest : List QEntry} {run : Nat} (hl : l.queue = e :: rest)
    (hrun : run ≤ 4) (h : LineBounds l) : LineBounds (admitted (headTaken e rest run l)) := by
  have hlen : l.queue.length = rest.length + 1 := by simp [hl]
  have hattempt : ∀ f, some (newFlight (.control e.frame) none e.fallen) = some f → 1 ≤ f.attempt ∧ f.attempt ≤ 16 :=
    fun f hf => by cases hf; simp [newFlight]
  have hqueue := h.queue
  have hfull := h.marks
  unfold admitted headTaken
  dsimp only
  split
  · next hm => exact ⟨by dsimp only; omega, fun hne => absurd hm hne, h.consecutive, hrun, hattempt, h.statistics⟩
  · next m ms hm =>
    have := hfull (by simp [hm])
    refine ⟨?_, fun _ => ?_, h.consecutive, hrun, hattempt, h.statistics⟩
    · simp only [List.length_append, List.length_singleton]; omega
    · simp only [List.length_append, List.length_singleton]; omega

theorem State.takeHead_kept (s : State) {e : QEntry} {rest : List QEntry} (hl : s.line.queue = e :: rest) :
    Kept s (s.takeHead e rest) := by
  unfold State.takeHead
  dsimp only
  rw [State.admitMark_eq]
  refine .trans ?_ (State.startWait_kept _)
  refine (Kept.records s _ fun h r c hc => ?_).trans (Kept.withLine _ (admitted (headTaken e rest s.runAfterControl s.line))
    (lineBounds_headTaken hl s.runAfterControl_le) fun _ ⟨hframes, hlen, hmarks⟩ => ?_)
  · dsimp only at hc
    split at hc
    · rw [pick_put] at hc
      split at hc
      · cases hc
      · exact h r c hc
    · exact h r c hc
  · dsimp only at hframes hlen hmarks
    have hrest : rest = [] := by simpa [hl] using hlen
    simp [LeaveOnly, admitted, headTaken, hmarks, hrest]

theorem State.schedule_lawful (s : State) : Lawful s s.schedule := by
  unfold State.schedule
  split
  · next h =>
    have hr : s.ctl.mode.receives = true := by
      cases hm : s.ctl.mode <;> simp_all [State.mayTake, Mode.transmits, Mode.receives]
    refine Moved.lawful_of_receives (Kept.moved ?_) hr
    split
    · split_ifs
      · exact s.takeOffer_kept _
      · exact s.takePresence_kept
      · split
        · next hq => exact s.takeHead_kept hq
        · exact s.takeOffer_kept _
    · exact s.takePresence_kept
    · next hq => exact s.takeHead_kept hq
    · exact Kept.refl s
  · exact Lawful.refl s

/-! ### Attempts -/

section Attempt

variable {s : State} {f : Flight}

/-- The frame in flight keeps its number within its bounds. -/
def InBounds (s : State) (f : Flight) : Prop := LineBounds s.line → 1 ≤ f.attempt ∧ f.attempt ≤ 16

theorem inBounds_of_flight (h : s.line.flight = some f) : InBounds s f := fun hb => hb.attempts f h

theorem State.tryHandover_kept (hf : InBounds s f) (r : Region) : Kept s (s.tryHandover f r) := by
  have hidle : Kept s (s.endFlight.handoverIdle r) := s.endFlight_kept.trans (State.handoverIdle_kept _ r)
  unfold State.tryHandover
  dsimp only
  split
  · exact s.endFlight_kept
  split
  · exact hidle
  split
  · split
    · exact hidle.trans ((State.setServing_kept _ r _).trans ((State.requestRelease_kept _ r).trans (State.releaseIfLeaving_kept _ r)))
    · exact hidle.trans (State.releaseIfLeaving_kept _ r)
  split
  · exact hidle
  split
  · exact s.endFlight_kept.trans ((State.removeClaimant_kept _ r _).trans ((State.handoverIdle_kept _ r).trans (State.goOn_kept _ r)))
  · exact (s.setEntry_kept r { s.entry r with role := .handing } id).trans ((State.setPub_kept _ r none fun _ => rfl).trans
      ((State.setServing_kept _ r _).trans (State.startAttempt_kept _ f _ hf)))

theorem State.tryRelease_kept (hf : InBounds s f) (r : Region) : Kept s (s.tryRelease f r) := by
  unfold State.tryRelease
  split_ifs
  · exact s.endFlight_kept
  · exact s.endFlight_kept.trans (State.releaseIdle_kept _ r)
  · exact s.endFlight_kept.trans ((State.releaseIdle_kept _ r).trans (State.serve_kept _ r))
  · exact s.endFlight_kept.trans (State.hand_kept _ _)
  · exact (s.setEntry_kept r { s.entry r with release := .captured } id).trans (State.startAttempt_kept _ f _ hf)

theorem State.firstAttempt_kept (hf : InBounds s f) (q : QFrame) : Kept s (s.firstAttempt f q) := by
  have hsend : ∀ x, Kept s (s.startAttempt f x) := fun x => s.startAttempt_kept f x hf
  have hend := s.endFlight_kept
  cases q with
  | join | leave | wait | refuse => exact hsend _
  | claim r =>
    unfold State.firstAttempt
    dsimp only
    split
    · exact hsend _
    · exact hend
  | withdraw r =>
    unfold State.firstAttempt
    dsimp only
    split
    · exact hend
    · exact hsend _
  | handover r => exact State.tryHandover_kept hf r
  | take r =>
    unfold State.firstAttempt
    dsimp only
    split
    · exact s.startAttempt_kept _ _ hf
    · exact hend
  | release r => exact State.tryRelease_kept hf r
  | repair r =>
    unfold State.firstAttempt
    dsimp only
    split
    · exact hsend _
    · exact hend

theorem State.returnToOwner_kept (s : State) (r : Region) : Kept s (s.returnToOwner r) := by
  unfold State.returnToOwner
  split
  · exact (s.setEntry_kept r _ (by exact id)).trans (State.addFull_kept _ r)
  · exact Kept.refl s

theorem State.withdrawHandover_kept (s : State) (r : Region) (target : Station) : Kept s (s.withdrawHandover r target) :=
  s.endFlight_kept.trans ((State.removeClaimant_kept _ r target).trans ((State.returnToOwner_kept _ r).trans
    ((State.handoverIdle_kept _ r).trans (State.goOn_kept _ r))))

theorem State.laterAttempt_kept (hf : InBounds s f) (x : Frame) (q : QFrame) : Kept s (s.laterAttempt f x q) := by
  have hsend : Kept s (s.startAttempt f x) := s.startAttempt_kept f x hf
  have hend := s.endFlight_kept
  unfold State.laterAttempt State.recheckHandover State.recheckRelease
  split
  · split_ifs
    · exact hsend
    · exact hend
  · split_ifs
    · exact hend
    · split
      · split_ifs
        · exact hsend
        · exact s.withdrawHandover_kept _ _
      · exact hend
      · exact hend
  · split_ifs
    · exact hsend
    · exact hend
  · split_ifs
    · exact hend
    · exact hsend
    · exact hend.trans (State.releaseIdle_kept _ _)
  all_goals exact hsend

theorem State.attempt_kept (hf : InBounds s f) : Kept s (s.attempt f) := by
  unfold State.attempt
  split
  · exact s.startAttempt_kept f _ hf
  · split
    · exact s.startAttempt_kept f _ hf
    · exact s.endFlight_kept
  · exact s.endFlight_kept
  · exact State.firstAttempt_kept hf _
  · exact State.laterAttempt_kept hf _ _

end Attempt

theorem State.waitEnds_lawful (s : State) : Lawful s s.waitEnds := by
  refine Moved.lawful_of_flight ?_ fun hn => by simp [State.waitEnds, hn]
  unfold State.waitEnds
  split
  · next f hf =>
    split
    · exact ((State.attempt_kept (inBounds_of_flight hf)).trans (State.leaveIfDone_kept _)).moved
    · exact (Kept.refl s).moved
  · exact (Kept.refl s).moved

/-! ### Outcomes -/

/-- The entry to ACTIVE ends the bar on additions (R37, R115). -/
theorem State.enterActive_moved (s : State) (hm : s.ctl.mode = .joining) : Moved s s.enterActive := by
  unfold State.enterActive
  dsimp only
  refine Moved.then ?_ (Moved.lawful_of_receives (Kept.forRegions (fun r s => s.serve_kept r) _).moved ?_)
  · refine ⟨by simp, fun hi => by simpa [ImageLaw] using hi, fun hb => { State.transition_bounds s .active .joined hb with },
      fun hl => leaveLaw_free ?_ rfl, fun _ => quietLaw_of_receives (by simp [State.transition_eq, Mode.receives])⟩
    simpa [State.transition_eq] using leaveLaw_notQueued hl (by simp [hm])
  · simp [State.transition_eq, Mode.receives]

theorem ClaimRecord.countClaim_attempts (c : ClaimRecord) : c.countClaim.attempts ≤ 3 := Nat.min_le_left _ _

theorem State.carryClaim_kept (s : State) (f : Flight) (r : Region) : Kept s (s.carryClaim f r) := by
  unfold State.carryClaim
  split
  · exact s.withdrawIfRoom_kept r
  · split
    · next c hc =>
      dsimp only
      split <;> exact State.changed_kept hc (.inr c.countClaim_attempts)
    · exact s.withdrawIfRoom_kept r

theorem State.dropClaim_kept (s : State) (f : Flight) (r : Region) : Kept s (s.dropClaim f r) := by
  unfold State.dropClaim
  split
  · exact Kept.refl s
  · split
    · next c hc =>
      have hd : Kept s (s.setRecord r (some c.countClaim)) := State.changed_kept hc (.inr c.countClaim_attempts)
      dsimp only
      split
      · split
        · exact hd.trans (State.needClaim_kept _ r)
        · split
          · exact hd.trans (State.exhaust_kept _ r)
          · exact hd.trans (State.failRecord_kept _ r _)
      · exact hd
    · exact Kept.refl s

theorem State.carryHandover_kept (s : State) (f : Flight) (r : Region) (seq : Half) : Kept s (s.carryHandover f r seq) := by
  unfold State.carryHandover
  split
  · refine .trans ?_ (State.notify_kept _ _)
    refine .trans ?_ (State.setServing_kept _ r _)
    refine .trans ?_ ((State.clearTable_kept _ r).trans (State.refuseAll_kept _ _ _ _ _))
    exact s.setEntry_kept r _ id
  · exact Kept.refl s

theorem State.dropHandover_kept (s : State) (f : Flight) (r : Region) : Kept s (s.dropHandover f r) := by
  unfold State.dropHandover
  split
  · exact (s.returnToOwner_kept r).trans ((State.handoverIdle_kept _ r).trans (State.goOn_kept _ r))
  · exact Kept.refl s

theorem State.carryTake_kept (s : State) (r : Region) (seq : Half) (stale : Bool) : Kept s (s.carryTake r seq stale) :=
  (s.startTenure_kept r seq).trans ((State.grantByTake_kept _ r stale).trans (State.goOn_kept _ r))

theorem State.dropTake_kept (s : State) (r : Region) : Kept s (s.dropTake r) := by
  unfold State.dropTake
  split
  · next c hc =>
    split
    · exact State.changed_kept hc (.inl le_rfl)
    · exact Kept.refl s
  · exact Kept.refl s

theorem State.carryRelease_kept (s : State) (f : Flight) (r : Region) (seq : Half) : Kept s (s.carryRelease f r seq) := by
  unfold State.carryRelease
  split
  · refine .trans ?_ (State.notify_kept _ _)
    refine .trans ?_ ((State.clearTable_kept _ r).trans (State.refuseAll_kept _ _ _ _ _))
    refine .trans ?_ ((State.setServing_kept _ r _).trans (State.unpublish_kept _ r))
    exact s.setEntry_kept r _ fun _ => Nat.zero_le _
  · exact Kept.refl s

theorem State.dropRelease_kept (s : State) (f : Flight) (r : Region) : Kept s (s.dropRelease f r) := by
  unfold State.dropRelease
  dsimp only
  split_ifs
  · exact Kept.refl s
  · exact (s.releaseIdle_kept r).trans (State.requestRelease_kept _ r)
  · exact (s.releaseIdle_kept r).trans (State.serve_kept _ r)

theorem State.carryUpdate_kept (s : State) (f : Flight) (r : Region) (seq : Half) : Kept s (s.carryUpdate f r seq) := by
  unfold State.carryUpdate
  split
  · exact s.setEntry_kept r _ id
  · exact Kept.refl s

theorem State.ownerCarried_moved (s : State) (f : Flight) : Moved s (s.ownerCarried f) := by
  unfold State.ownerCarried
  split
  · exact (Kept.refl s).moved
  · exact (s.carryUpdate_kept f _ _).moved
  · split
    · split
      · next hm => exact s.enterActive_moved hm
      · exact (Kept.refl s).moved
    · split
      · exact s.goOffline_moved
      · exact (Kept.refl s).moved
    · exact (s.carryClaim_kept f _).moved
    · exact (s.carryHandover_kept f _ _).moved
    · exact (s.carryTake_kept _ _ _).moved
    · exact (s.carryRelease_kept f _ _).moved
    all_goals exact (Kept.refl s).moved

theorem State.ownerDropped_moved (s : State) (f : Flight) : Moved s (s.ownerDropped f) := by
  unfold State.ownerDropped
  split
  · exact (Kept.refl s).moved
  · exact (s.addFull_kept _).moved
  · split
    · split
      · exact s.goOffline_moved
      · exact (Kept.refl s).moved
    · exact (s.dropClaim_kept f _).moved
    · exact (s.dropHandover_kept f _).moved
    · exact (s.dropTake_kept _).moved
    · exact (s.dropRelease_kept f _).moved
    all_goals exact (Kept.refl s).moved

theorem State.carried_lawful (s : State) : Lawful s s.carried := by
  refine Moved.lawful_of_flight ?_ fun hn => by simp [State.carried, hn]
  unfold State.carried
  split
  · split
    · have hu : Kept s { s with line := { s.line with flight := none, consecutive := 0, carrier := true, burst := .good (BitVec.ofNat 8 s.ctl.ownId.val) } } :=
        Kept.withLine s _ (fun h => { h with consecutive := Nat.zero_le 4, attempts := fun f hf => by cases hf }) fun _ h => h
      exact hu.then ((State.ownerCarried_moved _ _).then (State.leaveIfDone_lawful _))
    · exact (Kept.refl s).moved
  · exact (Kept.refl s).moved

theorem State.isolate_lawful (s : State) (c : Cause) : Lawful s (s.isolate c) :=
  (s.isolate_moved c).lawful fun _ _ => wentDown_quiet (State.goDown_down _ _ _ s)

theorem State.isolateIfLimit_lawful (s : State) (f : Flight) : Lawful s (s.isolateIfLimit f) := by
  unfold State.isolateIfLimit
  split
  · exact s.isolate_lawful _
  · exact Lawful.refl s

theorem State.dropFlight_moved (s : State) (f : Flight) : Moved s (s.dropFlight f) := by
  refine (s.notify_kept _).then ((State.latchLine_kept _).then (Kept.then (Kept.withLine _ _ (fun h => ?_) ?_)
    ((State.ownerDropped_moved _ f).then ((State.isolateIfLimit_lawful _ f).trans (State.leaveIfDone_lawful _)))))
  case refine_2 => exact fun _ h => h
  obtain ⟨h1, h2, h3, -, h5⟩ := h.statistics
  exact { h with consecutive := Nat.min_le_left _ _, attempts := fun f hf => by cases hf
                 statistics := ⟨h1, h2, h3, satSucc_le _, h5⟩ }

theorem State.collided_lawful (s : State) : Lawful s s.collided := by
  refine Moved.lawful_of_flight ?_ fun hn => by simp [State.collided, hn]
  unfold State.collided
  split
  · next f hf =>
    split
    · have hu : Kept s { s with line := { s.line with collisions := satSucc s.line.collisions, burst := .bad } } :=
        Kept.withLine s _ (fun h => by
          obtain ⟨h1, h2, -, h4⟩ := h.statistics
          exact { h with statistics := ⟨h1, h2, satSucc_le _, h4⟩ }) fun _ h => h
      dsimp only
      split
      · next ha =>
        refine (hu.trans (.trans (Kept.withLine _ _ (fun h => ?_) ?_) (State.startWaitIfIdle_kept _))).moved
        case refine_2 => exact fun _ h => h
        exact { h with attempts := fun g hg => by cases hg; exact ⟨Nat.succ_pos _, ha⟩ }
      · exact hu.then (State.dropFlight_moved _ f)
    · exact (Kept.refl s).moved
  · exact (Kept.refl s).moved

end Sys2Proof.Machine

/-! Received frames keep the laws, and with them every command: O1, O2, O56, O58 and O59. -/

namespace Sys2Proof.Machine

open Sys2Proof.Safety

/-! ### The roster -/

theorem RosterEntry.heardAgain_bounds (c : ConfigBlock) {e : RosterEntry} (h : e.heard ≤ 65535 ∧ e.homeCount ≤ 128) :
    (e.heardAgain c).heard ≤ 65535 ∧ (e.heardAgain c).homeCount ≤ 128 := ⟨satSucc_le _, h.2⟩

theorem State.laterAnnouncement_kept (s : State) (p : Station) (major : BitVec 4) (profile : Profile) (a : Announced) :
    Kept s (s.laterAnnouncement p major profile a) := by
  unfold State.laterAnnouncement
  dsimp only
  split
  · refine .trans (s.setPeer_kept p _ fun h => ?_) (State.notify_kept _ _)
    split <;> exact RosterEntry.heardAgain_bounds s.ctl.config h
  · refine s.setPeer_kept p _ fun h => ?_
    split <;> exact RosterEntry.heardAgain_bounds s.ctl.config h

theorem State.announcement_kept (s : State) (p : Station) (major : BitVec 4) (profile : Profile) (a : Announced) (byJoin : Bool) :
    Kept s (s.announcement p major profile a byJoin) := by
  unfold State.announcement
  split
  · split
    · refine .trans (s.setPeer_kept p _ fun _ => ?_) (State.notify_kept _ _)
      exact ⟨by simp [createdPresent], Nat.min_le_right _ _⟩
    · refine .trans (s.setPeer_kept p _ fun _ => ?_) (State.notify_kept _ _)
      simp [createdIncompatible, RosterEntry.reset]
  · exact s.laterAnnouncement_kept p major profile a
  · split
    · exact Kept.refl s
    · exact s.setPeer_kept p _ (RosterEntry.heardAgain_bounds _)

theorem State.takeRoster_kept (s : State) (p : Station) (major : BitVec 4) (v : RosterView) : Kept s (s.takeRoster p major v) := by
  unfold State.takeRoster
  split
  · exact s.announcement_kept p major _ _ _
  · exact s.announcement_kept p major _ _ _
  · have hgone : Kept s (((s.dropPeer p).notify (.peerGone p true)).reportLoss p) :=
      (s.dropPeer_kept p).trans ((State.notify_kept _ _).trans (State.reportLoss_kept _ p))
    unfold State.peerLeft
    split
    · exact s.reportLoss_kept p
    · exact hgone
    · exact hgone
  · split
    · exact s.setPeer_kept p _ (RosterEntry.heardAgain_bounds _)
    · exact Kept.refl s
    · exact Kept.refl s

/-! ### The receive dispatch -/

theorem State.sense_lawful (s : State) (b : Burst) {take : State → State} (h : ∀ u, Moved u (take u)) :
    Lawful s (s.sense b take) := by
  unfold State.sense
  split
  · exact Lawful.refl s
  · split
    · next hr => exact (s.foundBurst_lawful b).trans ((h _).lawful_of_receives hr)
    · exact s.foundBurst_lawful b

theorem State.deliver_kept (s : State) (p : Station) (major : BitVec 4) (v : RosterView) {blocks : State → State}
    (hb : ∀ u, Kept u (blocks u)) : Kept s (s.deliver p major v blocks) := by
  unfold State.deliver
  dsimp only
  split
  · exact (s.takeRoster_kept p major v).trans (hb _)
  · exact s.takeRoster_kept p major v

theorem State.receive_lawful (s : State) (h : Header) (v : RosterView) {blocks : Station → State → State}
    (hb : ∀ p u, Kept u (blocks p u)) : Lawful s (s.receive h v blocks) := by
  refine s.sense_lawful _ fun u => u.countGood_kept.then ?_
  dsimp only
  split
  · split
    · exact State.clash_moved _
    · exact (State.deliver_kept _ _ _ v (hb _)).moved
  · exact (Kept.refl _).moved

theorem inRegion_kept (h : Header) {f : Region → State → State} (hf : ∀ r u, Kept u (f r u)) (s : State) :
    Kept s (inRegion h f s) := by
  unfold inRegion
  split
  · exact hf _ s
  · exact Kept.refl s

/-! ### The directory -/

theorem State.writeSpan_kept (s : State) (r : Region) (offset : Nat) (data : List Byte) (hd : offset + data.length ≤ 128) :
    Kept s (s.writeSpan r offset data) :=
  Kept.withImage s _ (imageWf_imageWriteBytes data s.image _ (by have := r.isLt; unfold byteAddress; omega))

theorem State.updateFromOther_kept (s : State) (r : Region) (p : Station) (seq : Half) (offset : Nat) (data : List Byte)
    (hd : offset + data.length ≤ 128) : Kept s (s.updateFromOther r p seq offset data) := by
  have hw : Kept s ((s.setEntry r { s.entry r with owner := some p, role := .peer, lastSeq := seq }).writeSpan r offset data) :=
    (s.setEntry_kept r _ (by exact id)).trans (State.writeSpan_kept _ r offset data hd)
  unfold State.updateFromOther
  dsimp only
  split
  · exact hw.trans ((State.markValid_kept _ r).trans (State.toNormalClaim_kept _ r))
  · exact hw.trans ((State.markStale_kept _ r _).trans (State.toNormalClaim_kept _ r))

theorem State.updateFromOwner_kept (s : State) (r : Region) (seq : Half) (offset : Nat) (data : List Byte)
    (hd : offset + data.length ≤ 128) : Kept s (s.updateFromOwner r seq offset data) := by
  have hw : Kept s ((s.setEntry r { s.entry r with lastSeq := seq }).writeSpan r offset data) :=
    (s.setEntry_kept r _ (by exact id)).trans (State.writeSpan_kept _ r offset data hd)
  unfold State.updateFromOwner
  dsimp only
  split
  · exact Kept.refl s
  · exact Kept.refl s
  · split
    · exact hw.trans (State.markValid_kept _ r)
    · exact hw
  · split
    · exact hw.trans (State.markValid_kept _ r)
    · exact hw.trans (State.markStale_kept _ r _)

theorem State.takeUpdate_kept (s : State) (p : Station) (seq : Half) (offset : Byte) (data : List Byte) (r : Region) :
    Kept s (s.takeUpdate p seq offset data r) := by
  unfold State.takeUpdate
  split
  · exact Kept.refl s
  · next h =>
    have hd : offset.toNat + data.length ≤ 128 := by omega
    split
    · exact (s.meetRival_kept r p _).trans (State.leaveIfDone_kept _)
    · split
      · exact s.updateFromOwner_kept r seq _ data hd
      · exact s.updateFromOther_kept r p seq _ data hd

theorem State.seed_kept (s : State) (r : Region) (ids : List Byte) : Kept s (s.seed r ids) := by
  refine Kept.foldl (fun s b => ?_) ids s
  unfold State.seedOne
  split
  · exact Kept.refl s
  · split
    · exact Kept.refl s
    · split
      · exact s.appendClaimant_kept r _
      · split
        · exact s.answer_kept _
        · exact s.answer_kept _
        all_goals exact Kept.refl s

/-- A region's content taken from a frame. -/
theorem Kept.content (s : State) (r : Region) (content : Vector Byte 128) :
    Kept s { s with image := writeRegion s.image r content } :=
  Kept.withImage s _ (imageWf_writeRegion s.image r content)

theorem State.gainRegion_kept (s : State) (r : Region) (src : Station) (seq : Half) (ids : List Byte) (content : Vector Byte 128) :
    Kept s (s.gainRegion r src seq ids content) :=
  (Kept.content s r content).trans ((State.startTenure_kept _ r seq).trans ((State.seed_kept _ r ids).trans
    ((State.grantByHandover_kept _ r src).trans (State.goOn_kept _ r))))

theorem State.followOwner_kept (s : State) (r : Region) (p : Station) (seq : Half) (content : Vector Byte 128) :
    Kept s (s.followOwner r p seq content) := by
  unfold State.followOwner
  split
  · exact Kept.refl s
  · exact (Kept.content s r content).trans ((State.follow_kept _ r p seq).trans (State.toNormalClaim_kept _ r))

theorem State.takeHandover_kept (s : State) (src : Station) (seq : Half) (newOwner count : Byte) (ids : Vector Byte 3)
    (content : Vector Byte 128) (r : Region) : Kept s (s.takeHandover src seq newOwner count ids content r) := by
  unfold State.takeHandover
  split
  · exact Kept.refl s
  · split_ifs
    · exact Kept.refl s
    · exact s.addFull_kept r
    · exact Kept.refl s
    · exact (s.gainRegion_kept r src seq _ content).trans (State.leaveIfDone_kept _)
    · exact (s.meetRival_kept r _ _).trans (State.leaveIfDone_kept _)
    · exact s.followOwner_kept r _ seq content

theorem State.takeTake_kept (s : State) (src : Station) (seq : Half) (content : Vector Byte 128) (r : Region) :
    Kept s (s.takeTake src seq content r) := by
  unfold State.takeTake
  split
  · exact (s.meetRival_kept r src _).trans (State.leaveIfDone_kept _)
  · exact s.followOwner_kept r src seq content

theorem State.takeRelease_kept (s : State) (src : Station) (seq : Half) (r : Region) : Kept s (s.takeRelease src seq r) := by
  unfold State.takeRelease
  split
  · exact (s.setEntry_kept r _ (by exact id)).trans (State.toOrphanClaim_kept _ r)
  · exact Kept.refl s

theorem State.reconcile_kept (s : State) (src : Station) (owned : BitVec 128) (r : Region) : Kept s (s.reconcile src owned r) := by
  unfold State.reconcile
  split
  · split
    · exact s.meetRival_kept r src none
    · split
      · exact Kept.refl s
      · exact (s.setEntry_kept r _ (by exact id)).trans ((State.markStale_kept _ r _).trans (State.toNormalClaim_kept _ r))
  · exact s.loseOwner_kept src r

theorem State.takePresenceList_kept (s : State) (src : Station) (owned : BitVec 128) : Kept s (s.takePresenceList src owned) :=
  (Kept.forRegions (fun r s => s.reconcile_kept src owned r) s).trans (State.leaveIfDone_kept _)

theorem State.catchUp_kept (s : State) (src : Station) : Kept s (s.catchUp src) := by
  unfold State.catchUp
  split
  · split
    · exact s.addFullAll_kept
    · exact Kept.refl s
  · split
    · exact s.addFullAll_kept
    · exact Kept.refl s
  all_goals exact Kept.refl s

/-! ### Claim traffic -/

theorem State.redirectClaim_kept (s : State) (p : Station) (r : Region) : Kept s (s.redirectClaim p r) := by
  unfold State.redirectClaim
  split
  · exact s.answer_kept _
  · exact Kept.refl s

theorem State.claimAtOther_kept (s : State) (p : Station) (r : Region) : Kept s (s.claimAtOther p r) := by
  unfold State.claimAtOther State.compareOrphan
  split
  · next c hc =>
    split
    · split
      · exact (State.changed_kept hc (.inl (by exact le_rfl))).trans (State.claimWithdrawn_kept _ r)
      all_goals exact Kept.refl s
    · exact s.redirectClaim_kept p r
  · exact s.redirectClaim_kept p r

theorem State.claimAtOwner_kept (s : State) (p : Station) (r : Region) : Kept s (s.claimAtOwner p r) := by
  unfold State.claimAtOwner
  dsimp only
  split_ifs
  · exact s.answer_kept _
  · exact (s.appendClaimant_kept r p).trans ((State.answer_kept _ _).trans (State.serve_kept _ r))
  · exact s.answer_kept _

theorem State.claimAtLeaver_kept (s : State) (p : Station) (r : Region) : Kept s (s.claimAtLeaver p r) := by
  unfold State.claimAtLeaver
  split_ifs
  · exact Kept.refl s
  · exact Kept.refl s
  · exact s.appendClaimant_kept r p
  · exact s.answer_kept _
  · exact s.answer_kept _

theorem State.claimAtJoiner_kept (s : State) (p : Station) (r : Region) : Kept s (s.claimAtJoiner p r) := by
  unfold State.claimAtJoiner
  split_ifs
  · exact Kept.refl s
  · exact s.appendClaimant_kept r p
  · exact Kept.refl s

theorem State.takeClaim_kept (s : State) (p : Station) (r : Region) : Kept s (s.takeClaim p r) := by
  unfold State.takeClaim
  split
  · split
    · exact s.claimAtOwner_kept p r
    · exact (s.claimAtLeaver_kept p r).trans (State.leaveIfDone_kept _)
    · exact s.claimAtJoiner_kept p r
    · exact s.claimAtJoiner_kept p r
    all_goals exact Kept.refl s
  · exact s.claimAtOther_kept p r

theorem State.takeWait_kept (s : State) (p : Station) (claimant : Byte) (r : Region) : Kept s (s.takeWait p claimant r) := by
  unfold State.takeWait State.waitAtRecord
  split
  · split
    · next c hc =>
      dsimp only
      split
      · exact (State.changed_kept hc (.inr (by exact Nat.zero_le 3))).trans (State.dropClaimMark_kept _ r)
      · exact Kept.refl s
      · exact (State.changed_kept hc (.inr (by exact Nat.zero_le 3))).trans (State.claimWithdrawn_kept _ r)
    · split
      · exact Kept.refl s
      · exact s.withdrawIfRoom_kept r
  · exact Kept.refl s

theorem State.redirectTo_kept (s : State) (r : Region) (b : Station) : Kept s (s.redirectTo r b) := s.setEntry_kept r _ id

theorem State.refuseNormal_kept {s : State} {r : Region} {c : ClaimRecord} (hc : s.liveRecord r = some c) (p : Station)
    (reason : RefuseReason) (believed : Byte) : Kept s (s.refuseNormal p reason believed r c) := by
  unfold State.refuseNormal
  split
  · split
    · exact s.toOrphanClaim_kept r
    · next b _ =>
      have hb := s.redirectTo_kept r b
      dsimp only
      split_ifs
      · exact hb
      · exact hb.trans ((State.changed_kept (s := s.redirectTo r b) hc (.inl (by exact le_rfl))).trans (State.needClaim_kept _ r))
      · exact hb.trans (State.failRecord_kept _ r _)
  · split_ifs
    · exact Kept.refl s
    · exact State.changed_kept hc (.inl le_rfl)
    · exact s.failRecord_kept r _
  · exact s.failRecord_kept r _

theorem State.refuseOrphan_kept {s : State} {r : Region} {c : ClaimRecord} (hc : s.liveRecord r = some c) (p : Station)
    (reason : RefuseReason) (believed : Byte) : Kept s (s.refuseOrphan p reason believed r c) := by
  unfold State.refuseOrphan
  split
  · split
    · exact Kept.refl s
    · exact (s.redirectTo_kept r _).trans (State.toNormalClaim_kept _ r)
  · split
    · exact Kept.refl s
    · exact (State.changed_kept hc (.inr (by exact Nat.zero_le 3))).trans (State.claimWithdrawn_kept _ r)
  · split
    · exact Kept.refl s
    · exact s.failRecord_kept r _

theorem State.takeRefuse_kept (s : State) (p : Station) (claimant reason believed : Byte) (r : Region) :
    Kept s (s.takeRefuse p claimant reason believed r) := by
  unfold State.takeRefuse
  split
  · split
    · next hc =>
      split
      · split
        · exact State.refuseNormal_kept hc p _ believed
        · exact Kept.refl s
      · exact State.refuseOrphan_kept hc p _ believed
    · exact Kept.refl s
  · exact Kept.refl s

theorem State.takeWithdraw_kept (s : State) (p : Station) (r : Region) : Kept s (s.takeWithdraw p r) := by
  unfold State.takeWithdraw
  split
  · exact s.removeClaimant_kept r p
  · exact Kept.refl s

/-! ### Every command -/

/-- A command whose terms may fail to spell it. -/
theorem lawful_of_wellFormed {b : Bool} {s t u : State}
    (h : (if b = true then Host.Outcome.next u else .refused .illFormed : Host.Outcome State Fault Refusal) = .next t)
    (hu : Lawful s u) : Lawful s t := by
  split at h
  · cases h; exact hu
  · cases h

theorem exec_lawful {c : Instr} {s t : State} (h : exec c s = .next t) : Lawful s t := by
  have next : ∀ {u}, Host.Outcome.next u = (.next t : Host.Outcome State Fault Refusal) → Lawful s u → Lawful s t :=
    fun h hu => by cases h; exact hu
  cases c with
  | nrstAsserted => exact next h s.pinReset_lawful
  | nrstReleased straps => exact next h (s.leavePinReset_lawful straps)
  | imageClearComplete => exact next h s.clearingEnds_lawful
  | msTick => exact next h s.tick_lawful
  | windowRead word lanes => exact next h (s.respond_lawful _ _)
  | windowWrite word lanes data => exact next h (s.windowWrite_lawful word lanes data)
  | configurationWrite word lanes data => exact lawful_of_wellFormed h (s.writeConfig_lawful word lanes data)
  | noticePop lanes data => exact next h (s.writeOutsideReset_lawful lanes s.popNotice_lawful)
  | flagsWrite lanes data => exact next h (s.writeOutsideReset_lawful lanes (s.writeFlags_lawful lanes data))
  | maskWrite lanes data => exact next h (s.writeOutsideReset_lawful lanes (s.writeMask_lawful lanes data))
  | registerWrite word lanes data => exact lawful_of_wellFormed h (s.writeRegister_lawful word lanes data)
  | joinCommand arg => exact next h (s.command_lawful _ arg State.join_lawful)
  | leaveCommand arg => exact next h (s.command_lawful _ arg State.leaveCell_lawful)
  | restartCommand arg straps => exact next h (s.command_lawful _ arg (State.restartStation_lawful straps))
  | claimCommand arg => exact next h (s.command_lawful _ arg (State.regionCommand_lawful State.claimRegion_kept))
  | withdrawCommand arg => exact next h (s.command_lawful _ arg (State.regionCommand_lawful State.withdrawClaim_kept))
  | releaseCommand arg =>
    exact next h (s.command_lawful _ arg (State.regionCommand_lawful (State.onOwned_kept State.forceOut_kept)))
  | holdCommand arg => exact next h (s.command_lawful _ arg (State.regionCommand_lawful (State.onOwned_kept State.hold_kept)))
  | unholdCommand arg => exact next h (s.command_lawful _ arg (State.regionCommand_lawful (State.onOwned_kept State.unhold_kept)))
  | refreshCommand arg =>
    exact next h (s.command_lawful _ arg (State.regionCommand_lawful (State.onOwned_kept fun r u => u.addFull_kept r)))
  | unknownCommand arg code => exact lawful_of_wellFormed h (s.command_lawful code arg fun u => u.setResult_lawful _)
  | carrierStart => exact next h s.carrierAppears_lawful
  | lineIdle => exact next h s.lineBecomesIdle_lawful
  | schedulerTake => exact next h (s.schedule_lawful.trans (State.leaveIfDone_lawful _))
  | deferralWaitExpiry => exact next h s.waitEnds_lawful
  | attemptCarried => exact next h s.carried_lawful
  | attemptCollision => exact next h s.collided_lawful
  | badBurst =>
    refine next h (s.sense_lawful _ fun u => (Kept.withLine u _ (fun hb => ?_) ?_).moved)
    case refine_2 => exact fun _ h => h
    exact { hb with statistics := ⟨hb.statistics.1, satSucc_le _, hb.statistics.2.2⟩ }
  | idClashFrame => exact next h (s.sense_lawful _ fun u => u.countGood_kept.then (State.clash_moved _))
  | noSourceFrame source => exact lawful_of_wellFormed h (s.sense_lawful _ fun u => u.countGood_kept.moved)
  | unknownKindFrame code hd => exact lawful_of_wellFormed h (s.receive_lawful hd .other fun _ u => Kept.refl u)
  | presenceReceived hd profile st owned =>
    exact next h (s.receive_lawful hd _ fun p u => u.takePresenceList_kept p owned)
  | joinReceived hd profile => exact next h (s.receive_lawful hd _ fun p u => u.catchUp_kept p)
  | leaveReceived hd => exact next h (s.receive_lawful hd .leave fun _ u => Kept.refl u)
  | claimReceived hd => exact next h (s.receive_lawful hd .other fun p => inRegion_kept hd fun r u => u.takeClaim_kept p r)
  | waitReceived hd claimant position =>
    exact next h (s.receive_lawful hd .other fun p => inRegion_kept hd fun r u => u.takeWait_kept p claimant r)
  | refuseReceived hd claimant reason believed =>
    exact next h (s.receive_lawful hd .other fun p => inRegion_kept hd fun r u => u.takeRefuse_kept p claimant reason believed r)
  | withdrawReceived hd => exact next h (s.receive_lawful hd .other fun p => inRegion_kept hd fun r u => u.takeWithdraw_kept p r)
  | handoverReceived hd newOwner count ids content =>
    exact next h (s.receive_lawful hd .other fun p => inRegion_kept hd fun r u =>
      u.takeHandover_kept p hd.seq newOwner count ids content r)
  | takeReceived hd content =>
    exact next h (s.receive_lawful hd .other fun p => inRegion_kept hd fun r u => u.takeTake_kept p hd.seq content r)
  | releaseReceived hd =>
    exact next h (s.receive_lawful hd .other fun p => inRegion_kept hd fun r u => u.takeRelease_kept p hd.seq r)
  | updateReceived hd offset length data =>
    exact lawful_of_wellFormed h (s.receive_lawful hd .other fun p => inRegion_kept hd fun r u =>
      u.takeUpdate_kept p hd.seq offset data r)
  | repairReceived hd => exact next h (s.receive_lawful hd .other fun _ => inRegion_kept hd fun r u => u.addFull_kept r)
  | listenTimerExpiry => exact next h s.listenExpires_lawful
  | leaveTimerExpiry => exact next h s.leaveExpires_lawful
  | presenceTimerExpiry => exact next h s.presenceExpires_lawful
  | refreshTimerExpiry => exact next h s.refreshExpires_lawful
  | scanTimerExpiry => exact next h s.scanExpires_lawful
  | tenureTimerExpiry r => exact next h (s.tenureExpires_lawful r)
  | answerTimerExpiry r => exact next h (s.answerExpires_lawful r)
  | patienceTimerExpiry r => exact next h (s.patienceExpires_lawful r)
  | orphanWaitTimerExpiry r => exact next h (s.orphanWaitExpires_lawful r)
  | redirectTimerExpiry r => exact next h (s.redirectExpires_lawful r)
  | silenceTimerExpiry p => exact next h (s.silenceExpires_lawful p)
  | homeClaim => exact next h s.takeHome_lawful

/-! ### The step -/

/-- Settles O1: both clauses are the step's own two cases. -/
theorem stepTakesTheFrontCommand : Obligations.StepTakesTheFrontCommand := by
  constructor
  · intro s c rest h
    rw [step, h]
  · intro s h
    rw [step, h]

/-- What a step keeps but for the waiting commands, it keeps by the command that it takes. -/
theorem step_keeps {P : State → Prop} (hpending : ∀ s rest, P s → P { s with pending := rest })
    (hexec : ∀ {c s t}, exec c s = .next t → P s → P t) {s t : State} (hs : P s) (h : step s = .next t) : P t := by
  unfold step at h
  split at h
  · cases h; exact hs
  · exact hexec h (hpending s _ hs)

/-- Settles O56: neither law speaks of the waiting commands, and every command keeps both. -/
theorem stepsKeepImageAndBounds : Obligations.StepsKeepImageAndBounds := fun _ _ h =>
  ⟨fun hs => step_keeps (P := ImageLaw) (fun _ _ h => h) (fun h => (exec_lawful h).image) hs h,
    fun hs => step_keeps (P := BoundsLaw) (fun _ _ h => { h with }) (fun h => (exec_lawful h).bounds) hs h⟩

/-- Settles O58: a command leaves a quiet station quiet, and one by which a station stops receiving makes it quiet. -/
theorem stepsKeepQuiet : Obligations.StepsKeepQuiet := fun _ _ hs h =>
  step_keeps (P := QuietLaw) (fun _ _ h => h) (fun h => (exec_lawful h).quiet) hs h

/-- Settles O59: what is queued, marked or published is so through a hand-over or an addition, which the LEAVE frame bars. -/
theorem stepsKeepLeaving : Obligations.StepsKeepLeaving := fun _ _ hs h =>
  step_keeps (P := LeaveLaw) (fun _ _ h => { h with }) (fun h => (exec_lawful h).leave) hs h

/-- A well-formed command completes. -/
theorem exec_next {c : Instr} (h : c.wellFormed = true) (s : State) : ∃ t, exec c s = .next t := by
  cases c
  case configurationWrite => exact ⟨_, if_pos h⟩
  case registerWrite => exact ⟨_, if_pos h⟩
  case unknownCommand => exact ⟨_, if_pos h⟩
  case noSourceFrame => exact ⟨_, if_pos h⟩
  case unknownKindFrame => exact ⟨_, if_pos h⟩
  case updateReceived => exact ⟨_, if_pos h⟩
  all_goals exact ⟨_, rfl⟩

theorem exec_illFormed {c : Instr} (h : c.wellFormed = false) (s : State) : exec c s = .refused .illFormed := by
  have hn : ¬c.wellFormed = true := by simp [h]
  cases c
  case configurationWrite => exact if_neg hn
  case registerWrite => exact if_neg hn
  case unknownCommand => exact if_neg hn
  case noSourceFrame => exact if_neg hn
  case unknownKindFrame => exact if_neg hn
  case updateReceived => exact if_neg hn
  all_goals cases h

/-- Settles O2: six rows have a form to spell, and every command leaves the queue to the step. -/
theorem everyCommandCompletes : Obligations.EveryCommandCompletes := by
  refine fun c s => ⟨fun h => ?_, fun h => exec_illFormed h s⟩
  obtain ⟨t, ht⟩ := exec_next h s
  exact ⟨t, ht, (exec_lawful ht).pending⟩

end Sys2Proof.Machine

/-! Reset and time: the values of reset block by block (O3), one tick (O4), many ticks (O5), and the events that cannot take place
(O6). -/

namespace Sys2Proof.Machine

open Sys2Proof.Safety

/-! ### The values of reset -/

/-- A state whose blocks hold their values of reset, but for the bar on additions and the mailbox, is cleared. -/
theorem blocksCleared_of {t : State} {barred : Bool} {argument command : Byte} {result : Result} (himage : t.image = [])
    (hdir : t.dir = State.reset.dir) (hpub : t.pub = { Publication.reset with barred := barred })
    (hclaims : t.claims = ClaimEngine.reset) (hroster : t.roster = State.reset.roster)
    (hctl : t.ctl.listen = .stopped ∧ t.ctl.leave = .stopped ∧ t.ctl.presence = .stopped ∧ t.ctl.presenceDue = false ∧ t.ctl.backlog = [])
    (hparked : t.parked = [])
    (hcmd : t.cmd = { CommandUnit.reset with argument := argument, command := command, result := result })
    (hline : t.line = LineUnit.reset) : BlocksCleared t where
  image a := by rw [himage]; rfl
  dir r := by simp [State.entry, hdir, State.reset, DirEntry.reset]
  pub := by simp [State.pubEntry, hpub, Publication.reset]
  claims := by simp [State.record, State.serving, hclaims, ClaimEngine.reset, ServeEntry.reset]
  roster p := by simp [State.peer, hroster, State.reset, RosterEntry.reset]
  ctl := hctl
  parked := hparked
  cmd := by simp [hcmd, State.interrupt, CommandUnit.reset, CommandUnit.flags, CommandUnit.noticeFlag]
  line := by simp [hline, LineUnit.reset]

theorem defaultConfig_reset : DefaultConfig ConfigBlock.reset :=
  ⟨rfl, fun b h => by simpa [ConfigBlock.reset] using h, fun b h => by simpa [ConfigBlock.reset] using h⟩

/-- nRST low: every block takes its value of pin reset (R108). -/
theorem pinReset_cleared (s : State) : BlocksCleared s.pinReset :=
  blocksCleared_of rfl rfl rfl rfl rfl ⟨rfl, rfl, rfl, rfl, rfl⟩ rfl rfl rfl

/-- nRST high after low: the straps are sampled, the mailbox is kept (R108, R143). -/
theorem leavePinReset_low {s : State} (h : s.port.nrstHigh = false) (straps : Station) :
    s.leavePinReset straps = { State.reset with
      port := { nrstHigh := true, answer := s.port.answer }
      ctl := { Controller.reset with ownId := straps }
      cmd := { CommandUnit.reset with argument := s.cmd.argument, command := s.cmd.command, result := s.cmd.result }
      pending := s.pending } := by
  simp [State.leavePinReset, h]

/-- Settles O3: each of the two edges of nRST gives the values of reset, and the end of the clearing is one transition. -/
theorem pinResetAndClearing : Obligations.PinResetAndClearing := by
  refine ⟨fun s straps => ⟨?_, fun hlow => ?_⟩, fun s hhigh hmode => ?_⟩
  · exact ⟨s.pinReset, rfl, pinReset_cleared s, defaultConfig_reset, rfl, rfl, rfl, rfl, rfl, rfl, rfl, rfl, rfl, rfl⟩
  · refine ⟨_, congrArg Host.Outcome.next (leavePinReset_low hlow straps), ?_, defaultConfig_reset, rfl, rfl, rfl, rfl, rfl, rfl, rfl, rfl, rfl, rfl⟩
    exact blocksCleared_of rfl rfl rfl rfl rfl ⟨rfl, rfl, rfl, rfl, rfl⟩ rfl rfl rfl
  · change Host.Outcome.next s.clearingEnds = _
    rw [State.clearingEnds, if_pos ⟨hmode, hhigh⟩, State.transition_eq]

/-! ### One tick -/

theorem Timer.tick_eq (t : Timer) : t.tick = counted t := by cases t <;> rfl

theorem Mode.receives_iff (m : Mode) : m.receives = true ↔ m = .listen ∨ m = .joining ∨ m = .active ∨ m = .leaving := by
  cases m <;> simp [Mode.receives]

/-- Settles O4: the tick maps every table by the tick of its entries. -/
theorem tickDrivesEveryTimer : Obligations.TickDrivesEveryTimer := by
  intro s hhigh
  refine ⟨s.tick, rfl, ?_⟩
  rw [State.tick, if_pos hhigh]
  refine ⟨?_, fun r => ?_, ?_, fun r => ?_, fun r => ?_, rfl, fun p => ?_, rfl⟩
  · simp only [Timer.tick_eq]
  · have hage : satSucc (s.entry r).staleAge = if (s.entry r).staleAge < 65535 then (s.entry r).staleAge + 1 else 65535 := rfl
    simp only [State.entry, pick_map, DirEntry.tick, Timer.tick_eq, Bool.and_eq_true, Mode.receives_iff, beq_iff_eq]
    rfl
  · simp only [Timer.tick_eq]
  · simp only [State.record, pick_map, ← Timer.tick_eq]
    rfl
  · simp only [State.serving, pick_map, Timer.tick_eq]
  · simp only [State.peer, pick_map, Timer.tick_eq]

/-! ### Many ticks -/

/-- A timer after k ticks is due where it was started at no more than k. -/
theorem counted_due (d k : Nat) : (counted^[k] (.running d)).due = true ↔ d ≤ k := by
  have h : ∀ (k d : Nat), counted^[k] (.running d) = .running (d - k) := by
    intro k
    induction k with
    | zero => intro d; rfl
    | succ k ih => intro d; rw [Function.iterate_succ_apply, counted, ih, Nat.sub_sub, Nat.add_comm]
  rw [h]
  rcases Nat.lt_or_ge k d with hlt | hge
  · obtain ⟨n, hn⟩ : ∃ n, d - k = n + 1 := ⟨d - k - 1, by omega⟩
    simp [hn, Timer.due]; omega
  · simp [Nat.sub_eq_zero_of_le hge, Timer.due, hge]

/-- The state after k ticks: the tick count went up by k, and every timer counted down k times. -/
structure Ticked (k : Nat) (s t : State) : Prop where
  high : t.port.nrstHigh = true
  ticks : t.ctl.ticks = s.ctl.ticks + BitVec.ofNat 16 k
  listen : t.ctl.listen = counted^[k] s.ctl.listen
  leave : t.ctl.leave = counted^[k] s.ctl.leave
  presence : t.ctl.presence = counted^[k] s.ctl.presence
  refresh : t.pub.refresh = counted^[k] s.pub.refresh
  scan : t.pub.scan = counted^[k] s.pub.scan
  tenure : ∀ r, (t.entry r).tenure = counted^[k] (s.entry r).tenure
  redirect : ∀ r, (t.serving r).redirect = counted^[k] (s.serving r).redirect
  silence : ∀ p, (t.peer p).silence = counted^[k] (s.peer p).silence
  records : ∀ r c, s.record r = some c → ∃ d, t.record r = some d ∧ d.answer = counted^[k] c.answer ∧
    d.patience = counted^[k] c.patience ∧ d.orphanWait = counted^[k] c.orphanWait

theorem ticked_zero {s : State} (h : s.port.nrstHigh = true) : Ticked 0 s s :=
  ⟨h, by simp, rfl, rfl, rfl, rfl, rfl, fun _ => rfl, fun _ => rfl, fun _ => rfl, fun _ c hc => ⟨c, hc, rfl, rfl, rfl⟩⟩

theorem Ticked.tick {k : Nat} {s t : State} (h : Ticked k s t) : Ticked (k + 1) s t.tick := by
  obtain ⟨u, hu, hctl, hentry, hpub, hrecord, hserving, -, hpeer, hframe⟩ := tickDrivesEveryTimer t h.high
  have hu : t.tick = u := by injection hu
  subst hu
  have hport : t.tick.port = t.port := (congrArg State.port hframe :)
  refine ⟨by rw [hport, h.high], ?_, ?_, ?_, ?_, ?_, ?_, fun r => ?_, fun r => ?_, fun p => ?_, fun r c hc => ?_⟩
  · rw [hctl, BitVec.ofNat_add, ← BitVec.add_assoc, ← h.ticks]; rfl
  · rw [hctl, Function.iterate_succ_apply', ← h.listen]
  · rw [hctl, Function.iterate_succ_apply', ← h.leave]
  · rw [hctl, Function.iterate_succ_apply', ← h.presence]
  · rw [hpub, Function.iterate_succ_apply', ← h.refresh]
  · rw [hpub, Function.iterate_succ_apply', ← h.scan]
  · rw [hentry, Function.iterate_succ_apply', ← h.tenure]
  · rw [hserving, Function.iterate_succ_apply', ← h.redirect]
  · rw [hpeer, Function.iterate_succ_apply', ← h.silence]
  · obtain ⟨d, hd, ha, hp, ho⟩ := h.records r c hc
    simp only [Function.iterate_succ_apply', ← ha, ← hp, ← ho]
    exact ⟨_, by rw [hrecord, hd]; rfl, rfl, rfl, rfl⟩

theorem after_ticks (k : Nat) : ∀ s : State, after (List.replicate k .msTick) s = some (State.tick^[k] s) := by
  induction k with
  | zero => exact fun _ => rfl
  | succ k ih => exact fun s => ih s.tick

theorem ticked_iterate (k : Nat) {s : State} (h : s.port.nrstHigh = true) : Ticked k s (State.tick^[k] s) := by
  induction k with
  | zero => exact ticked_zero h
  | succ k ih => rw [Function.iterate_succ_apply']; exact ih.tick

/-- Settles O5: after k ticks a timer that stood at d stands at d - k. -/
theorem timersRunOutAtTheirTick : Obligations.TimersRunOutAtTheirTick := by
  intro s k hhigh
  have h := ticked_iterate k hhigh
  refine ⟨_, after_ticks k s, h.ticks, ?_, ?_, ?_, ?_, ?_, ?_, ?_, ?_, fun r c hc => ?_⟩
  · exact fun d hd => by rw [h.listen, hd, counted_due]
  · exact fun d hd => by rw [h.leave, hd, counted_due]
  · exact fun d hd => by rw [h.presence, hd, counted_due]
  · exact fun d hd => by rw [h.refresh, hd, counted_due]
  · exact fun d hd => by rw [h.scan, hd, counted_due]
  · exact fun r d hd => by rw [h.tenure, hd, counted_due]
  · exact fun r d hd => by rw [h.redirect, hd, counted_due]
  · exact fun p d hd => by rw [h.silence, hd, counted_due]
  · obtain ⟨c', hc', ha, hp, ho⟩ := h.records r c hc
    exact ⟨c', hc', fun d hd => by rw [ha, hd, counted_due], fun d hd => by rw [hp, hd, counted_due],
      fun d hd => by rw [ho, hd, counted_due]⟩

/-! ### Events that cannot take place -/

/-- A record whose timer is not due is no live record with that timer due. -/
theorem live_not_due {s : State} {r : Region} {f : ClaimRecord → Timer} (h : ∀ c, s.record r = some c → (f c).due = false) :
    ∀ c, s.liveRecord r = some c → (f c).due = false :=
  fun c hc => h c (State.record_of_live hc)

theorem answerExpires_idle {s : State} {r : Region} (h : ∀ c, s.liveRecord r = some c → c.answer.due = false) :
    s.answerExpires r = s := by
  unfold State.answerExpires
  cases hc : s.liveRecord r with
  | none => rfl
  | some c => simp [h c hc]

theorem patienceExpires_idle {s : State} {r : Region} (h : ∀ c, s.liveRecord r = some c → c.patience.due = false) :
    s.patienceExpires r = s := by
  unfold State.patienceExpires
  cases hc : s.liveRecord r with
  | none => rfl
  | some c => simp [h c hc]

theorem orphanWaitExpires_idle {s : State} {r : Region} (h : ∀ c, s.liveRecord r = some c → c.orphanWait.due = false) :
    s.orphanWaitExpires r = s := by
  unfold State.orphanWaitExpires
  cases hc : s.liveRecord r with
  | none => rfl
  | some c => simp [h c hc]

theorem takeHome_idle {s : State} (h : s.ctl.backlog = [] ∨ s.ctl.mode ≠ .active) : s.takeHome = s := by
  unfold State.takeHome
  split
  · next r rest hmode hbacklog => simp [hmode, hbacklog] at h
  · rfl

theorem outcome_idle {s : State} (h : ∀ f, s.line.flight = some f → f.transmitting = false) : s.carried = s ∧ s.collided = s := by
  unfold State.carried State.collided
  cases hf : s.line.flight with
  | none => exact ⟨rfl, rfl⟩
  | some f => simp [h f hf]

theorem waitEnds_idle {s : State} (h : ∀ f, s.line.flight = some f → f.wait = none) : s.waitEnds = s := by
  unfold State.waitEnds
  cases hf : s.line.flight with
  | none => rfl
  | some f => simp [h f hf]

/-- Settles O6: each event tests first what it needs. -/
theorem eventsThatCannotOccurChangeNothing : Obligations.EventsThatCannotOccurChangeNothing := by
  intro s r p straps
  have next {t : State} (h : t = s) : (Host.Outcome.next t : Host.Outcome State Fault Refusal) = .next s := congrArg _ h
  refine ⟨fun h => next (if_pos h), fun h => next (if_neg ?_), fun h => next (if_neg (by simp [h])), fun h => next (if_neg (by simp [h])),
    fun h => next (if_neg (by simp [h])), fun h => next (if_neg (by simp [h])), fun h => next (if_neg (by simp [h])),
    fun h => next (if_neg (by simp [h])), fun h => next (if_neg (by simp [h])), fun h => next (answerExpires_idle (live_not_due h)),
    fun h => next (patienceExpires_idle (live_not_due h)), fun h => next (orphanWaitExpires_idle (live_not_due h)),
    fun h => next (if_neg (by simp [h])), fun h => next (if_neg (by simp [h])), fun h => next (takeHome_idle h),
    fun h => ⟨next (outcome_idle h).1, next (outcome_idle h).2⟩, fun h => next (waitEnds_idle h), fun h => next (if_pos h),
    fun h => next (if_pos h)⟩
  rintro ⟨hmode, hhigh⟩
  simp [hmode, hhigh] at h

end Sys2Proof.Machine

/-! Host accesses: the translation of a window access (O7), window writes (O9, O10), writes of the configuration area (O11), the pop,
the argument and the other registers (O12), and the flags and the mask (O13). -/

namespace Sys2Proof.Machine

open Sys2Proof.Safety

/-! ### Translation (R127) -/

theorem Window.covers_iff (w : Window) (u : Nat) : w.covers u = true ↔ Covers w u := by
  simp [Window.covers, Covers, and_assoc]

/-- The window found is the covering one of lowest index. -/
theorem coveringWindow_iff (c : ConfigBlock) (u : Nat) (w : Window) : coveringWindow c u = some w ↔
    ∃ i : Fin 8, w = c.window i ∧ Covers w u ∧ ∀ j : Fin 8, j < i → ¬Covers (c.window j) u := by
  rw [coveringWindow, List.find?_eq_some_iff_getElem]
  simp only [List.length_map, List.length_finRange, List.getElem_map, List.getElem_finRange, ← Window.covers_iff]
  constructor
  · rintro ⟨hcovers, i, hi, rfl, hlow⟩
    exact ⟨⟨i, hi⟩, rfl, hcovers, fun j hj => by simpa using hlow j.val hj⟩
  · rintro ⟨i, rfl, hcovers, hlow⟩
    exact ⟨hcovers, i.val, i.isLt, rfl, fun j hj => by simpa using hlow ⟨j, hj.trans i.isLt⟩ hj⟩

theorem coveringWindow_none (c : ConfigBlock) (u : Nat) : coveringWindow c u = none ↔ ∀ i : Fin 8, ¬Covers (c.window i) u := by
  simp [coveringWindow, List.find?_eq_none, ← Window.covers_iff]

/-- A covering window maps the unit to a region. -/
theorem windowTarget_covered {c : ConfigBlock} {word : BitVec 13} {w : Window} (h : coveringWindow c (wordUnit word) = some w) :
    ∃ hr : w.imageStart + (wordUnit word - w.hostBase) < 128, windowTarget c word = some (w, ⟨_, hr⟩) := by
  obtain ⟨i, rfl, hcovers, -⟩ := (coveringWindow_iff c (wordUnit word) w).1 h
  have hr : (c.window i).imageStart + (wordUnit word - (c.window i).hostBase) < 128 := by have := hcovers.2.2.2.2; omega
  exact ⟨hr, by simp [windowTarget, h, hr]⟩

theorem windowTarget_uncovered {c : ConfigBlock} {word : BitVec 13} (h : coveringWindow c (wordUnit word) = none) :
    windowTarget c word = none := by simp [windowTarget, h]

/-- Settles O7: the translation is the covering window of lowest index with its region. -/
theorem windowTranslation : Obligations.WindowTranslation := by
  intro c word
  cases h : coveringWindow c (wordUnit word) with
  | none =>
    have hnone := (coveringWindow_none c (wordUnit word)).1 h
    refine ⟨fun w r => ?_, iff_of_true (windowTarget_uncovered h) hnone⟩
    rw [windowTarget_uncovered h]
    refine ⟨fun hw => (by cases hw), ?_⟩
    rintro ⟨i, rfl, hcovers, -⟩
    exact absurd hcovers (hnone i)
  | some v =>
    obtain ⟨hr, htarget⟩ := windowTarget_covered h
    have hsome := coveringWindow_iff c (wordUnit word)
    rw [htarget]
    refine ⟨fun w r => ⟨fun hw => ?_, ?_⟩, by simpa [wordUnit] using (hsome v).1 h |>.imp fun i hi => hi.1 ▸ hi.2.1⟩
    · obtain ⟨rfl, rfl⟩ : v = w ∧ _ = r := by simpa using hw
      obtain ⟨i, hi, hcovers, hlow⟩ := (hsome v).1 h
      exact ⟨i, hi, hcovers, hlow, rfl⟩
    · rintro ⟨i, hi, hcovers, hlow, hreg⟩
      obtain rfl : v = w := by simpa [h] using (hsome w).2 ⟨i, hi, hcovers, hlow⟩
      exact congrArg some (Prod.ext rfl (Fin.ext hreg.symm))

/-! ### The lanes of a write -/

/-- Four lanes written one after another at consecutive addresses: an address has the byte of the enabled lane that falls on it. -/
def laneWritten {β : Type} (lanes : BitVec 4) (base x : Nat) (byte : Nat → β) (before : β) : β :=
  if lanes.getLsbD 3 = true ∧ x = base + 3 then byte 3
  else if lanes.getLsbD 2 = true ∧ x = base + 2 then byte 2
  else if lanes.getLsbD 1 = true ∧ x = base + 1 then byte 1
  else if lanes.getLsbD 0 = true ∧ x = base + 0 then byte 0
  else before

theorem laneWritten_enabled {β : Type} {lanes : BitVec 4} {k : Fin 4} (h : lanes.getLsbD k = true) (base : Nat) (byte : Nat → β)
    (before : β) : laneWritten lanes base (base + k.val) byte before = byte k := by
  unfold laneWritten
  match k with
  | 0 => simp at h; simp [h]
  | 1 => simp at h; simp [h]
  | 2 => simp at h; simp [h]
  | 3 => simp at h; simp [h]

theorem laneWritten_other {β : Type} {lanes : BitVec 4} {base x : Nat} (h : ∀ k : Fin 4, lanes.getLsbD k = true → x ≠ base + k.val)
    (byte : Nat → β) (before : β) : laneWritten lanes base x byte before = before := by
  rw [laneWritten, if_neg fun hx => h 3 hx.1 hx.2, if_neg fun hx => h 2 hx.1 hx.2, if_neg fun hx => h 1 hx.1 hx.2,
    if_neg fun hx => h 0 hx.1 hx.2]

/-! ### Writes to an owned region (R24, R130) -/

theorem imageRead_writeLanes_laneWritten (m : Image) (r : Region) (word : BitVec 13) (lanes : BitVec 4) (data : HostWord)
    (h : imageWf m = true) (x : Nat) :
    imageRead (writeLanes m r (wordOffset word) lanes data) x =
      laneWritten lanes (128 * r.val + 4 * (word.toNat % 32)) x (laneByte data) (imageRead m x) := by
  rw [imageRead_writeLanes _ _ _ _ _ (wordOffset_lt word) h]
  simp only [byteAddress_wordOffset]
  rfl

/-- The lowest and the highest enabled lane are the bounds of the enabled lanes. -/
theorem lanes_between {lanes : BitVec 4} {lo hi : Fin 4} (hlo : lanes.getLsbD lo = true) (hhi : lanes.getLsbD hi = true)
    (h : ∀ k : Fin 4, lanes.getLsbD k = true → lo ≤ k ∧ k ≤ hi) : lowLane lanes = lo.val ∧ highLane lanes = hi.val := by
  have hne : lanes ≠ 0 := fun h0 => by simp [h0] at hlo
  obtain ⟨hl, hh, hl4, hh4, hbounds⟩ := lane_bounds lanes hne
  have h1 := hbounds lo hlo
  have h2 := hbounds hi hhi
  have h3 := h ⟨_, hl4⟩ hl
  have h4 := h ⟨_, hh4⟩ hh
  simp only [Fin.le_def] at h3 h4
  omega

theorem toOffset_val {n : Nat} (h : n < 128) : (toOffset n).val = n := Nat.mod_eq_of_lt h

theorem windowWrite_owner {s : State} {word : BitVec 13} {lanes : BitVec 4} {first len : Nat} {w : Window} {r : Region}
    (data : HostWord) (hmode : s.ctl.mode = .active) (hlanes : laneGroup lanes = some (first, len))
    (htarget : windowTarget s.ctl.config word = some (w, r)) (hprotect : w.writeProtect = false)
    (hrole : (s.entry r).role = .owner) (hrelease : (s.entry r).release ≠ .captured) :
    s.windowWrite word lanes data = (s.applyWrite r word lanes data).respond true 0 := by
  simp [State.windowWrite, hmode, hlanes, htarget, hprotect, hrole, hrelease]

/-- Settles O9: the image and the publish set of the written state, each by its own law. -/
theorem windowWriteToOwned : Obligations.WindowWriteToOwned := by
  intro s word lanes data first len w r lo hi hmode hbarred himage hlanes htarget hprotect hrole hrelease hlo hhi hbounds
  obtain ⟨hlow, hhigh⟩ := lanes_between hlo hhi hbounds
  have hoffset := wordOffset_lt word
  have hread := imageRead_writeLanes_laneWritten s.image r word lanes data himage
  have hwritten : s.applyWrite r word lanes data = { s with
      image := writeLanes s.image r (wordOffset word) lanes data
      pub := { s.pub with set := put s.pub.set r (spanAddition (toOffset (wordOffset word + lo.val))
        (toOffset (wordOffset word + hi.val)) (s.pubEntry r)) } } := by
    rw [State.applyWrite, hlow, hhigh]
    exact State.addSpan_eq _ _ _ _ hrole hbarred
  refine ⟨_, toOffset (wordOffset word + lo.val), toOffset (wordOffset word + hi.val),
    congrArg Host.Outcome.next (windowWrite_owner data hmode hlanes htarget hprotect hrole hrelease), ?_⟩
  rw [hwritten]
  refine ⟨fun k hk => ?_, fun x hx => ?_, ?_, toOffset_val (by omega), toOffset_val (by omega), rfl, rfl, rfl⟩
  · exact (hread _).trans (laneWritten_enabled hk _ _ _)
  · exact (hread _).trans (laneWritten_other hx _ _)
  · exact imageWf_writeLanes _ _ _ _ _ hoffset himage

/-! ### Writes parked or refused (R129 to R132) -/

theorem claimTaken_iff {s : State} (hmode : s.ctl.mode = .active) (r : Region) : s.claimTaken r = true ↔ Claimable s r := by
  simp [State.claimTaken, Claimable, hmode, and_assoc]
  exact fun _ _ => Iff.rfl

theorem windowWrite_other {s : State} {word : BitVec 13} {lanes : BitVec 4} {first len : Nat} {w : Window} {r : Region}
    (data : HostWord) (hmode : s.ctl.mode = .active) (hlanes : laneGroup lanes = some (first, len))
    (htarget : windowTarget s.ctl.config word = some (w, r)) (hprotect : w.writeProtect = false)
    (hrole : (s.entry r).role.owns = false) :
    s.windowWrite word lanes data = if w.claimOnWrite then s.parkWrite r word first len lanes data else s.respond false 0 := by
  cases hr : (s.entry r).role <;> simp_all [State.windowWrite, Role.owns]

/-- The first lane of a group and its length stay in the word. -/
theorem laneGroup_bounds {lanes : BitVec 4} {first len : Nat} (h : laneGroup lanes = some (first, len)) : first < 4 := by
  unfold laneGroup at h
  split_ifs at h <;> simp at h <;> omega

/-- A write that fails one of R129's tests, or its way at the region's role, is answered ERROR. -/
theorem windowWrite_refused {s : State} {word : BitVec 13} {lanes : BitVec 4} (data : HostWord)
    (h : s.ctl.mode ≠ .active ∨ laneGroup lanes = none ∨ windowTarget s.ctl.config word = none ∨
      ∃ w r, windowTarget s.ctl.config word = some (w, r) ∧
        (w.writeProtect = true ∨ (s.entry r).role = .handing ∨
          ((s.entry r).role = .owner ∧ (s.entry r).release = .captured) ∨
          ((s.entry r).role.owns = false ∧
            (w.claimOnWrite = false ∨ 16 ≤ s.parked.length ∨ (s.liveRecord r = none ∧ ¬Claimable s r))))) :
    s.windowWrite word lanes data = s.respond false 0 := by
  by_cases hmode : s.ctl.mode = .active
  swap
  · exact if_pos hmode
  rw [State.windowWrite, if_neg (not_not.2 hmode)]
  obtain hm | hlanes | htarget | ⟨w, r, htarget, hcase⟩ := h
  · exact absurd hmode hm
  · rw [hlanes]
  · rw [htarget]
    cases laneGroup lanes <;> rfl
  · rw [htarget]
    cases laneGroup lanes with
    | none => rfl
    | some g =>
      obtain ⟨first, len⟩ := g
      by_cases hprotect : w.writeProtect = true
      · simp [hprotect]
      · obtain hp | hhanding | ⟨howner, hcaptured⟩ | ⟨hrole, hother⟩ := hcase
        · exact absurd hp hprotect
        · simp [hhanding]
        · simp [howner, hcaptured]
        · have hpark : w.claimOnWrite = true → s.parkWrite r word first len lanes data = s.respond false 0 := by
            intro hclaim
            obtain hc | hfull | ⟨hlive, hno⟩ := hother
            · simp [hc] at hclaim
            · simp [State.parkWrite, Config.maxParked, hfull]
            · simp [State.parkWrite, hlive, mt (claimTaken_iff hmode r).1 hno]
          cases hr : (s.entry r).role <;> simp_all [Role.owns]

/-- Settles O10: the parked write of the two ways that R132 accepts, and the refusals of R129 to R132. -/
theorem windowWriteParkedOrRefused : Obligations.WindowWriteParkedOrRefused := by
  refine ⟨fun s word lanes data first len w r offset hmode hqueued hlanes htarget hprotect hclaim hrole hroom hoffset => ?_,
    fun s word lanes data h => congrArg Host.Outcome.next (windowWrite_refused data h)⟩
  have hfirst := laneGroup_bounds hlanes
  have hword := wordOffset_lt word
  have hsame : toOffset (wordOffset word + first) = offset :=
    Fin.ext ((toOffset_val (by omega)).trans (by rw [hoffset, wordOffset]))
  have hwrite := windowWrite_other data hmode hlanes htarget hprotect hrole
  rw [if_pos hclaim, State.parkWrite, if_neg (by simpa [Config.maxParked] using hroom)] at hwrite
  refine ⟨fun hlive => congrArg Host.Outcome.next (hwrite.trans ?_), fun hable => congrArg Host.Outcome.next (hwrite.trans ?_)⟩
  · rw [if_pos hlive, State.park, hsame]
    rfl
  · rw [if_neg (by simp [hable.2.1]), if_pos ((claimTaken_iff hmode r).2 hable), State.requestClaim_eq r .write s hqueued,
      State.park, hsame]
    rfl

/-! ### The configuration area (R111) -/

/-- A byte of the block by its host address (spec/10 section 10.2.3). -/
def ConfigBlock.byteAt (c : ConfigBlock) (a : Nat) : Option Byte :=
  if h : 0x8100 ≤ a ∧ a < 0x8108 then some (pick c.params ⟨a - 0x8100, by omega⟩)
  else if h : 0x8110 ≤ a ∧ a < 0x8120 then some (pick c.homeSet ⟨a - 0x8110, by omega⟩)
  else if h : 0x8140 ≤ a ∧ a < 0x8160 then some (pick c.windows ⟨a - 0x8140, by omega⟩)
  else none

/-- The address is one of the block's. -/
def inBlock (a : Nat) : Prop := (0x8100 ≤ a ∧ a < 0x8108) ∨ (0x8110 ≤ a ∧ a < 0x8120) ∨ (0x8140 ≤ a ∧ a < 0x8160)

theorem headD_drop {n : Nat} (v : Vector Byte n) {i : Nat} (h : i < n) : (v.toList.drop i).headD 0 = pick v ⟨i, h⟩ := by
  simp [List.headD_eq_head?_getD, List.head?_drop, pick, h]

/-- The configuration area reads the block. -/
theorem controlByte_byteAt (s : State) {a : Nat} (h : 0x8100 ≤ a) (h' : a < 0x8160) : s.controlByte a = s.ctl.config.byteAt a := by
  rw [State.controlByte, State.locationBytes, if_neg (by omega), if_neg (by omega), if_neg (by omega), if_neg (by omega),
    if_neg (by omega), if_neg (by omega), if_neg (by omega), if_neg (by omega), ConfigBlock.byteAt]
  by_cases hparams : 0x8100 ≤ a ∧ a < 0x8108
  · rw [if_pos hparams, dif_pos hparams, Option.map_some, headD_drop]
  by_cases hhomes : 0x8110 ≤ a ∧ a < 0x8120
  · rw [if_neg hparams, dif_neg hparams, if_pos hhomes, dif_pos hhomes, Option.map_some, headD_drop]
  by_cases hwindows : 0x8140 ≤ a ∧ a < 0x8160
  · rw [if_neg hparams, dif_neg hparams, if_neg hhomes, dif_neg hhomes, if_pos hwindows, dif_pos hwindows, Option.map_some, headD_drop]
  · rw [if_neg hparams, dif_neg hparams, if_neg hhomes, dif_neg hhomes, if_neg hwindows, dif_neg hwindows, dif_neg (by omega),
      dif_neg (by omega), Option.map_none]

/-- Reading a table by addresses from k upward, after one write. -/
theorem pick_put_sub {n k a x : Nat} (v : Vector Byte n) (ha : a - k < n) (hx : x - k < n) (hka : k ≤ a) (hkx : k ≤ x) (b : Byte) :
    pick (put v ⟨a - k, ha⟩ b) ⟨x - k, hx⟩ = if x = a then b else pick v ⟨x - k, hx⟩ := by
  rw [pick_put]
  have : (⟨x - k, hx⟩ : Fin n) = ⟨a - k, ha⟩ ↔ x = a := by rw [Fin.mk.injEq]; omega
  simp only [this]

theorem ConfigBlock.byteAt_writeByte (c : ConfigBlock) {a : Nat} (ha : inBlock a) (b : Byte) (x : Nat) :
    (c.writeByte a b).byteAt x = if x = a then some b else c.byteAt x := by
  unfold inBlock at ha
  unfold ConfigBlock.writeByte ConfigBlock.byteAt
  by_cases h1 : 0x8100 ≤ x ∧ x < 0x8108
  · simp only [dif_pos h1]
    split_ifs <;> simp [pick_put_sub, *] <;> omega
  by_cases h2 : 0x8110 ≤ x ∧ x < 0x8120
  · simp only [dif_neg h1, dif_pos h2]
    split_ifs <;> simp [pick_put_sub, *] <;> omega
  by_cases h3 : 0x8140 ≤ x ∧ x < 0x8160
  · simp only [dif_neg h1, dif_neg h2, dif_pos h3]
    split_ifs <;> simp [pick_put_sub, *] <;> omega
  · simp only [dif_neg h1, dif_neg h2, dif_neg h3, if_neg (show ¬x = a by omega)]

/-- Every byte of a word of the configuration area is one of the block's. -/
theorem inBlock_lane {word : BitVec 13} (h : configWord word = true) (k : Fin 4) : inBlock (controlAddress word + k.val) := by
  simp only [configWord, Bool.or_eq_true, Bool.and_eq_true, decide_eq_true_eq] at h
  unfold inBlock controlAddress
  omega

theorem byteAt_laneWritten (c : ConfigBlock) {word : BitVec 13} (h : configWord word = true) (lanes : BitVec 4) (data : HostWord)
    (x : Nat) : (c.writeLanes (controlAddress word) lanes data).byteAt x =
      laneWritten lanes (controlAddress word) x (fun k => some (laneByte data k)) (c.byteAt x) := by
  have step (c : ConfigBlock) (k : Nat) (hk : k < 4) :
      (if lanes.getLsbD k then c.writeByte (controlAddress word + k) (laneByte data k) else c).byteAt x =
        if lanes.getLsbD k = true ∧ x = controlAddress word + k then some (laneByte data k) else c.byteAt x := by
    cases lanes.getLsbD k
    · simp
    · simpa using ConfigBlock.byteAt_writeByte c (inBlock_lane h ⟨k, hk⟩) (laneByte data k) x
  simp only [ConfigBlock.writeLanes, List.foldl_cons, List.foldl_nil]
  rw [step _ 3 (by decide), step _ 2 (by decide), step _ 1 (by decide), step _ 0 (by decide)]
  rfl

/-- Settles O11: the area reads the block, and the block has each enabled lane at its address. -/
theorem configurationWrite : Obligations.ConfigurationWrite := by
  intro s word lanes data hword
  have hexec : exec (.configurationWrite word lanes data) s = .next (s.writeConfig word lanes data) := if_pos hword
  rw [hexec]
  refine ⟨fun hmode hlanes => ⟨_, rfl, ?_⟩, fun h => ?_⟩
  · rw [State.writeConfig, if_pos ⟨hmode, Option.isSome_iff_ne_none.2 hlanes⟩]
    refine ⟨fun a hlow hhigh => ?_, rfl, rfl⟩
    simp only [controlByte_byteAt _ hlow hhigh, State.respond_ctl, byteAt_laneWritten _ hword]
    refine ⟨fun k hk hlane => ?_, fun hoff => laneWritten_other (fun k hlane hk => ?_) _ _⟩
    · rw [hk]
      exact laneWritten_enabled hlane _ _ _
    · exact absurd (hoff k hk) (by rw [hlane]; decide)
  · rw [State.writeConfig, if_neg]
    · rfl
    · rintro ⟨hmode, hlanes⟩
      obtain hm | hl := h
      · exact hm hmode
      · simp [hl] at hlanes

/-! ### The other locations -/

/-- A location that is written outside RESET: answered OK for lanes that form a group, and else ERROR (R140). -/
theorem writeOutsideReset_ok {s : State} {lanes : BitVec 4} (hmode : s.ctl.mode ≠ .reset) (hlanes : laneGroup lanes ≠ none)
    (act : State → State) : s.writeOutsideReset lanes act = (act s).respond true 0 :=
  if_pos ⟨hmode, Option.isSome_iff_ne_none.2 hlanes⟩

theorem writeOutsideReset_error {s : State} {lanes : BitVec 4} (h : s.ctl.mode = .reset ∨ laneGroup lanes = none)
    (act : State → State) : s.writeOutsideReset lanes act = s.respond false 0 := by
  refine if_neg ?_
  rintro ⟨hmode, hlanes⟩
  obtain hm | hl := h
  · exact hmode hm
  · simp [hl] at hlanes

theorem exec_registerWrite {word : BitVec 13} {lanes : BitVec 4} (data : HostWord) (s : State) (hown : ownRowWord word = false)
    (hissues : issuesCommand word lanes = false) :
    exec (.registerWrite word lanes data) s = .next (s.writeRegister word lanes data) :=
  if_pos (by simp [Instr.wellFormed, hown, hissues])

theorem laneGroup_zero (lanes : BitVec 4) : laneGroup lanes = some (0, 1) ↔ lanes = 0b0001 := by decide +revert

/-- Settles O12: the pop by R140's test, and a register write by its word and lanes. -/
theorem noticePopAndRegisterWrite : Obligations.NoticePopAndRegisterWrite := by
  intro s word lanes data
  refine ⟨fun hmode hlanes => ?_, fun h => congrArg Host.Outcome.next (writeOutsideReset_error h _), ?_, fun hown hissues hnot => ?_⟩
  · refine congrArg Host.Outcome.next ((writeOutsideReset_ok hmode hlanes _).trans ?_)
    rw [State.popNotice, ← List.drop_one]
    rfl
  · rintro rfl rfl
    exact congrArg Host.Outcome.next (if_pos ⟨rfl, rfl⟩)
  · rw [exec_registerWrite data s hown hissues]
    refine congrArg Host.Outcome.next (if_neg ?_)
    rintro ⟨hword, hlanes⟩
    exact hnot ⟨BitVec.eq_of_toNat_eq hword, (laneGroup_zero lanes).1 hlanes⟩

/-! ### The flags and the mask (R154 to R156) -/

/-- The five flags, bit by bit. -/
theorem flags_bit (c : CommandUnit) (i : Fin 5) : c.flags.getLsbD i =
    ![c.noticeFlag, c.overflowFlag, c.commandDone, c.stateChange, c.lineFlag] i := by
  have bits : ∀ (n o d t l : Bool) (i : Fin 5), (BitVec.ofBool l ++ BitVec.ofBool t ++ BitVec.ofBool d ++ BitVec.ofBool o ++
      BitVec.ofBool n).getLsbD i = ![n, o, d, t, l] i := by decide
  exact bits _ _ _ _ _ i

/-- A word of five bits is not 0 where one of its bits is 1. -/
theorem ne_zero_iff_bit (x : BitVec 5) : (x != 0) = true ↔ ∃ i : Fin 5, x.getLsbD i = true := by decide +revert

theorem interrupt_iff (s : State) : s.interrupt = true ↔ ∃ i : Fin 5, s.cmd.flags.getLsbD i = true ∧ s.cmd.mask.getLsbD i = true := by
  rw [State.interrupt, ne_zero_iff_bit]
  simp only [BitVec.getLsbD_and, Bool.and_eq_true]

/-- A flag after a write of the flags: cleared by a 1, but for NOTICE. -/
theorem clearFlags_bit (c : CommandUnit) (data : HostWord) (i : Fin 5) :
    (c.clearFlags (laneByte data 0)).flags.getLsbD i = (c.flags.getLsbD i && (i == 0 || !data.getLsbD i)) := by
  rw [flags_bit, flags_bit]
  simp only [CommandUnit.clearFlags, CommandUnit.noticeFlag]
  match i with
  | 0 => simp
  | 1 => simp [laneByte]
  | 2 => simp [laneByte]
  | 3 => simp [laneByte]
  | 4 => simp [laneByte]

/-- Settles O13: the flags and the mask bit by bit. -/
theorem flagsAndMaskWrites : Obligations.FlagsAndMaskWrites := by
  intro s lanes data
  refine ⟨interrupt_iff s, ?_, fun hmode hlanes hlane => ?_, fun hmode hlanes hlane => ?_, fun h => ?_⟩
  · exact (flags_bit s.cmd 0) ▸ by simp [CommandUnit.noticeFlag]
  · have hflags : s.writeFlags lanes data = { s with cmd := s.cmd.clearFlags (laneByte data 0) } := if_pos hlane
    have hmask : s.writeMask lanes data = { s with cmd := { s.cmd with mask := data.setWidth 5 } } := if_pos hlane
    refine ⟨⟨_, congrArg Host.Outcome.next (writeOutsideReset_ok hmode hlanes _), ?_⟩,
      ⟨_, congrArg Host.Outcome.next (writeOutsideReset_ok hmode hlanes _), ?_⟩⟩
    · rw [hflags]
      exact ⟨rfl, clearFlags_bit s.cmd data, rfl⟩
    · rw [hmask]
      exact ⟨rfl, fun i => by simp, rfl⟩
  · have hflags : s.writeFlags lanes data = s := if_neg (by rw [hlane]; decide)
    have hmask : s.writeMask lanes data = s := if_neg (by rw [hlane]; decide)
    refine ⟨congrArg Host.Outcome.next ((writeOutsideReset_ok hmode hlanes _).trans ?_),
      congrArg Host.Outcome.next ((writeOutsideReset_ok hmode hlanes _).trans ?_)⟩
    · rw [hflags]; rfl
    · rw [hmask]; rfl
  · exact ⟨congrArg Host.Outcome.next (writeOutsideReset_error h _), congrArg Host.Outcome.next (writeOutsideReset_error h _)⟩

end Sys2Proof.Machine

/-! A region that may go on, and the end of the leaving work (O21): what `goOn` and `leaveIfDone` answer, in each of their cases. -/

namespace Sys2Proof.Machine

open Sys2Proof.Safety

/-! ### Serving and releasing -/

/-- The region given to its queue: its HANDOVER is handed over (R62, R63). -/
def served (r : Region) (s : State) : State :=
  { s with
    claims := { s.claims with serve := put s.claims.serve r { s.serving r with handover := .queued } }
    line := handLine (.handover r) s.line }

/-- The region requested released: its RELEASE is handed over (R71). -/
def releasing (r : Region) (s : State) : State :=
  { s with dir := put s.dir r { s.entry r with release := .queued }, line := handLine (.release r) s.line }

theorem Timer.not_running_iff (t : Timer) : t.isRunning = false ↔ t = .stopped := by cases t <;> simp [Timer.isRunning]

theorem heldBack_iff (s : State) (r : Region) : s.heldBack r = true ↔
    (s.serving r).forced = false ∧ ((s.entry r).held = true ∨ (s.entry r).tenure ≠ .stopped) := by
  simp [State.heldBack, ← Timer.not_running_iff]

theorem servable_iff (s : State) (r : Region) : s.servable r = true ↔ Servable s r := by
  have hback : s.heldBack r = false ↔ (s.serving r).forced = true ∨ ((s.entry r).held = false ∧ (s.entry r).tenure = .stopped) := by
    rw [← not_iff_not, Bool.not_eq_false, heldBack_iff]
    cases (s.serving r).forced <;> cases (s.entry r).held <;> simp
  unfold State.servable Servable
  cases hmode : s.ctl.mode <;> simp [State.handoverPending, State.releasePending, and_assoc, hback]

theorem serve_servable {s : State} {r : Region} (h : Servable s r) (hq : s.ctl.leaveQueued = false) : s.serve r = served r s := by
  rw [State.serve, if_pos ((servable_iff s r).2 h), State.hand_eq _ _ (by exact hq)]
  rfl

theorem serve_unservable {s : State} {r : Region} (h : ¬Servable s r) : s.serve r = s := if_neg (mt (servable_iff s r).1 h)

/-- R71 takes a request to release where the role is OWNER and nothing of the region is pending. -/
theorem requestRelease_taken {s : State} {r : Region} (hrole : (s.entry r).role = .owner) (hrelease : (s.entry r).release = .idle)
    (hhandover : (s.serving r).handover = .idle) (hq : s.ctl.leaveQueued = false) : s.requestRelease r = releasing r s := by
  rw [State.requestRelease, if_pos ⟨hrole, by simp [State.releasePending, hrelease], by simp [State.handoverPending, hhandover], hq⟩,
    State.hand_eq _ _ (by exact hq)]
  rfl

theorem requestRelease_refused {s : State} {r : Region} (h : (s.entry r).role ≠ .owner ∨ (s.entry r).release ≠ .idle ∨
    (s.serving r).handover ≠ .idle ∨ s.ctl.leaveQueued = true) : s.requestRelease r = s := by
  refine if_neg ?_
  rintro ⟨hrole, hrelease, hhandover, hq⟩
  simp [State.releasePending] at hrelease
  simp [State.handoverPending] at hhandover
  simp [hrole, hrelease, hhandover, hq] at h

/-- A region without claimants is not served. -/
theorem serve_noClaimants {s : State} {r : Region} (h : s.claimants r = []) : s.serve r = s := serve_unservable fun hs => hs.2.1 h

/-- Before the LEAVE frame a servable region is served, and after it none is. -/
theorem Servable.notQueued {s : State} {r : Region} (h : Servable s r) (hl : s.ctl.leaveQueued = true → s.ctl.mode = .leaving) :
    s.ctl.leaveQueued = false := by
  obtain ⟨-, -, -, -, ⟨hactive, -⟩ | ⟨-, hq⟩⟩ := h
  · cases hq : s.ctl.leaveQueued with
    | false => rfl
    | true => simp [hl hq] at hactive
  · exact hq

theorem goOn_servable {s : State} {r : Region} (h : Servable s r) (hl : s.ctl.leaveQueued = true → s.ctl.mode = .leaving) :
    s.goOn r = served r s := by
  rw [State.goOn_serve s r h.2.1, serve_servable h (Servable.notQueued h hl)]

theorem releaseIfLeaving_releasable {s : State} {r : Region} (h : Releasable s r) : s.releaseIfLeaving r = releasing r s := by
  obtain ⟨hmode, hq, hrole, hclaimants, hhandover, hrelease⟩ := h
  rw [State.releaseIfLeaving, if_pos ⟨hmode, by simp [hclaimants]⟩]
  exact requestRelease_taken hrole hrelease hhandover hq

theorem goOn_releasable {s : State} {r : Region} (h : Releasable s r) : s.goOn r = releasing r s := by
  rw [State.goOn, serve_noClaimants h.2.2.2.1, releaseIfLeaving_releasable h]

theorem releaseIfLeaving_unreleasable {s : State} {r : Region} (h : ¬Releasable s r) : s.releaseIfLeaving r = s := by
  unfold State.releaseIfLeaving
  split_ifs with hleaving
  · obtain ⟨hmode, hclaimants⟩ := hleaving
    refine requestRelease_refused ?_
    by_contra hno
    simp only [not_or, not_not, Bool.not_eq_true] at hno
    obtain ⟨hrole, hrelease, hhandover, hq⟩ := hno
    exact h ⟨hmode, hq, hrole, by simpa using hclaimants, hhandover, hrelease⟩
  · rfl

theorem goOn_neither {s : State} {r : Region} (hs : ¬Servable s r) (hr : ¬Releasable s r) : s.goOn r = s := by
  rw [State.goOn, serve_unservable hs, releaseIfLeaving_unreleasable hr]

/-! ### The LEAVE frame -/

theorem leavingDone_iff (s : State) : s.leavingDone = true ↔ WorkDone s := by
  simp only [State.leavingDone, WorkDone, Bool.and_eq_true, List.all_eq_true, Bool.not_eq_true', and_assoc]
  refine and_congr ⟨fun h r => h _ (by simp [State.entry, pick]), fun h e he => ?_⟩ Iff.rfl
  obtain ⟨i, hi, rfl⟩ := List.getElem_of_mem he
  exact h ⟨i, by simpa using hi⟩

/-- Once the leaving work is done, no frame of it waits. -/
theorem WorkDone.not_waiting {s : State} (h : WorkDone s) {q : QFrame} (hq : q.leavingWork = true) : s.waiting q = false := by
  obtain ⟨-, hqueue, hmarks⟩ := h
  rw [State.waiting, Bool.or_eq_false_iff, List.any_eq_false, List.any_eq_false]
  refine ⟨fun e he => ?_, fun m hm => ?_⟩
  · have := hqueue e he
    simp only [Bool.and_eq_true, beq_iff_eq]
    rintro ⟨rfl, -⟩
    simp [hq] at this
  · have := hmarks m hm
    simp only [beq_iff_eq]
    rintro rfl
    simp [hq] at this

/-- The LEAVE frame is queued where no frame of the leaving work waits. -/
theorem queueLeave_done {s : State} (h : WorkDone s) : s.queueLeave = { s with
    claims := { s.claims with records := Vector.ofFn fun r => s.liveRecord r }
    pub := { s.emptyPublish.pub with barred := true }
    ctl := { s.ctl with leave := .stopped, presence := .stopped, presenceDue := false, leaveQueued := true }
    line := { s.line with queue := [{ frame := .leave, fallen := false }], marks := [] } } := by
  have hrelease : (Vector.ofFn fun r =>
      if (s.entry r).release = .queued ∧ s.waiting (.release r) then { s.entry r with release := .idle } else s.entry r) = s.dir :=
    pick_ext fun r => by simp [WorkDone.not_waiting h (q := .release r) rfl, State.entry]
  have hhandover : (Vector.ofFn fun r =>
      if (s.serving r).handover = .queued ∧ s.waiting (.handover r) then { s.serving r with handover := .idle } else s.serving r) =
        s.claims.serve :=
    pick_ext fun r => by simp [WorkDone.not_waiting h (q := .handover r) rfl, State.serving]
  unfold State.queueLeave
  dsimp only
  rw [hrelease, hhandover]

theorem leaveIfDone_done {s : State} (hmode : s.ctl.mode = .leaving) (hq : s.ctl.leaveQueued = false) (h : WorkDone s) :
    s.leaveIfDone = s.queueLeave := if_pos ⟨hmode, hq, (leavingDone_iff s).2 h⟩

theorem leaveIfDone_not {s : State} (h : s.ctl.mode ≠ .leaving ∨ s.ctl.leaveQueued = true ∨ ¬WorkDone s) : s.leaveIfDone = s := by
  refine if_neg ?_
  rintro ⟨hmode, hq, hdone⟩
  simp [hmode, hq, (leavingDone_iff s).1 hdone] at h

/-- Settles O21: a region goes on by being served, else by being released, else not at all; and the LEAVE frame is queued alone. -/
theorem regionsAndLeavingGoOn : Obligations.RegionsAndLeavingGoOn := by
  refine ⟨fun s r hl => ⟨fun h => goOn_servable h hl, goOn_releasable, goOn_neither⟩, fun s => ⟨fun hmode hq hdone => ?_, leaveIfDone_not⟩⟩
  rw [leaveIfDone_done hmode hq hdone, queueLeave_done hdone]
  refine ⟨rfl, rfl, fun r => ?_, rfl, rfl, rfl, rfl, fun _ => rfl, fun _ => rfl, rfl, fun r => ?_, rfl⟩
  · exact pick_replicate _ _
  · exact pick_ofFn _ _

end Sys2Proof.Machine

/-! The commands of the mailbox (O14, O15, O17 to O20). A command outside RESET is taken at the state that stores it (`taken`); each
command is said once as what it makes of that state. -/

namespace Sys2Proof.Machine

open Sys2Proof.Safety

/-! ### Taking a command (R142) -/

/-- The state that takes a command: its code and argument stored, COMMAND_DONE latched. -/
def taken (code : Byte) (arg : Option Byte) (s : State) : State :=
  { s with cmd := { s.cmd with command := code, argument := arg.getD s.cmd.argument, commandDone := true } }

theorem command_busy {s : State} (h : s.ctl.mode = .reset) (code : Byte) (arg : Option Byte) (act : State → State) :
    s.command code arg act = { s with
      port := answered true 0 s.port
      cmd := { s.cmd with command := code, argument := arg.getD s.cmd.argument, result := .busy } } :=
  if_pos h

theorem command_taken {s : State} (h : s.ctl.mode ≠ .reset) (code : Byte) (arg : Option Byte) (act : State → State) :
    s.command code arg act = (act (taken code arg s)).respond true 0 :=
  if_neg h

/-- A command that only writes a result is answered with it. -/
theorem command_answered {s : State} (h : s.ctl.mode ≠ .reset) {code : Byte} {arg : Option Byte} {act : State → State} {x : Result}
    (hact : act (taken code arg s) = (taken code arg s).setResult x) :
    (Host.Outcome.next (s.command code arg act) : Host.Outcome State Fault Refusal) = .next (commandAnswered x code arg s) := by
  rw [command_taken h, hact]
  rfl

theorem argumentRegion_of {a : Byte} {r : Region} (h : a.toNat = r.val) : argumentRegion a = some r := by
  simp [argumentRegion, regionOf, h]

section Region

variable {s : State} {code : Byte} {arg : Option Byte} (act : Region → State → State)

theorem regionCommand_state (h : s.ctl.mode ≠ .active) :
    (taken code arg s).regionCommand act = (taken code arg s).setResult .state := if_pos h

theorem regionCommand_range (h : s.ctl.mode = .active) (harg : 128 ≤ (commandArgument arg s).toNat) :
    (taken code arg s).regionCommand act = (taken code arg s).setResult .range := by
  have hnone : argumentRegion (taken code arg s).cmd.argument = none := dif_neg (Nat.not_lt.2 harg)
  rw [State.regionCommand, if_neg (not_not.2 (by exact h)), hnone]

theorem regionCommand_act (h : s.ctl.mode = .active) {r : Region} (harg : (commandArgument arg s).toNat = r.val) :
    (taken code arg s).regionCommand act = act r (taken code arg s) := by
  have hsome : argumentRegion (taken code arg s).cmd.argument = some r := argumentRegion_of harg
  rw [State.regionCommand, if_neg (not_not.2 (by exact h)), hsome]

end Region

/-- Every command of the mailbox is taken by its code and argument. -/
theorem mailed_command {c : Instr} {code : Byte} {arg : Option Byte} (h : Mailed c code arg) (s : State) :
    ∃ act : State → State, exec c s = .next (s.command code arg act) := by
  cases h with
  | unknown arg code hcode => exact ⟨_, if_pos (by simpa [Instr.wellFormed] using hcode)⟩
  | _ => exact ⟨_, rfl⟩

/-- A command on a region is taken as one (R142). -/
theorem mailed_regionCommand {c : Instr} {code : Byte} {arg : Option Byte} (h : Mailed c code arg)
    (hcode : code ∈ [(0x10 : Byte), 0x11, 0x12, 0x13, 0x14, 0x15]) :
    ∃ act : Region → State → State, ∀ s, exec c s = .next (s.command code arg (State.regionCommand act)) := by
  cases h with
  | join | leave | restart => exact absurd hcode (by decide)
  | unknown _ _ hno => exact absurd ((by decide : ∀ x ∈ [(0x10 : Byte), 0x11, 0x12, 0x13, 0x14, 0x15], x ∈ commandCodes) _ hcode) hno
  | _ => exact ⟨_, fun _ => rfl⟩

theorem restartStation_refused {s : State} (straps : Station)
    (h : s.ctl.mode = .listen ∨ s.ctl.mode = .joining ∨ s.ctl.mode = .active ∨ s.ctl.mode = .leaving) :
    s.restartStation straps = s.setResult .state := by
  obtain h | h | h | h := h <;> simp [State.restartStation, h]

theorem restartStation_taken {s : State} (straps : Station)
    (h : s.ctl.mode = .config ∨ s.ctl.mode = .offline ∨ s.ctl.mode = .isolated) : s.restartStation straps = s.restart straps := by
  obtain h | h | h := h <;> simp [State.restartStation, h]

/-- Settles O14: the tests of R142 in their order, each answered by its result alone. -/
theorem commandsRefused : Obligations.CommandsRefused := by
  intro s c code arg hmailed
  refine ⟨fun hmode => ?busy, fun hmode => ⟨fun hcode => ?unknown, fun hcode h => ?join, fun hcode h => ?leave, fun hcode h => ?restart,
    fun hcode => ?region⟩⟩
  case busy =>
    obtain ⟨act, hact⟩ := mailed_command hmailed s
    rw [hact, command_busy hmode]
  case unknown =>
    cases hmailed with
    | unknown _ _ hno => exact (if_pos (by simpa [Instr.wellFormed] using hno)).trans (command_answered hmode rfl)
    | _ => exact absurd (by decide) hcode
  case join =>
    cases hmailed with
    | join => exact command_answered hmode (if_pos h)
    | unknown _ _ hno => exact absurd (by rw [hcode]; decide) hno
    | _ => exact absurd hcode (by decide)
  case leave =>
    cases hmailed with
    | leave => exact command_answered hmode (if_neg h)
    | unknown _ _ hno => exact absurd (by rw [hcode]; decide) hno
    | _ => exact absurd hcode (by decide)
  case restart =>
    cases hmailed with
    | restart _ straps => exact command_answered hmode (restartStation_refused straps (by exact h))
    | unknown _ _ hno => exact absurd (by rw [hcode]; decide) hno
    | _ => exact absurd hcode (by decide)
  case region =>
    obtain ⟨act, hact⟩ := mailed_regionCommand hmailed hcode
    rw [hact]
    exact ⟨fun h => command_answered hmode (regionCommand_state act h),
      fun h harg => command_answered hmode (regionCommand_range act h harg)⟩

/-! ### JOIN (R112, R113) -/

theorem Window.fails_iff (w : Window) : w.fails = true ↔
    w.enabled = true ∧ (w.size = 0 ∨ 128 < w.imageStart + w.size ∨ 256 < w.hostBase + w.size) := by
  simp [Window.fails, or_assoc]

theorem mem_failingItems (own : Station) (c : ConfigBlock) (i : Nat) : i ∈ failingItems own c ↔ ItemFails own c i := by
  have hw : (∃ w : Fin 8, (c.window w).fails = true ∧ 8 + w.val = i) ↔ ∃ w : Fin 8, i = 8 + w.val ∧ (c.window w).enabled = true ∧
      ((c.window w).size = 0 ∨ 128 < (c.window w).imageStart + (c.window w).size ∨ 256 < (c.window w).hostBase + (c.window w).size) :=
    exists_congr fun w => by rw [Window.fails_iff, and_comm, eq_comm]
  simp only [failingItems, ItemFails, List.mem_append, List.mem_map, List.mem_filter, List.mem_finRange, true_and, hw, or_assoc,
    List.mem_ite_nil_right, List.mem_singleton]
  simp only [ConfigBlock.misses, and_comm]

/-- The items that fail are listed in ascending order. -/
theorem failingItems_sorted (own : Station) (c : ConfigBlock) : (failingItems own c).Pairwise (· < ·) := by
  have item (p : Prop) [Decidable p] (k : Nat) : (if p then [k] else []).Sublist [k] := by split <;> simp
  exact List.Pairwise.sublist (((((((item _ 0).append (item _ 1)).append (item _ 2)).append (item _ 3)).append (item _ 4)).append
    (item _ 5)).append (List.filter_sublist.map fun w : Fin 8 => 8 + w.val))
    (by decide : ([0] ++ [1] ++ [2] ++ [3] ++ [4] ++ [5] ++ (List.finRange 8).map fun w : Fin 8 => 8 + w.val).Pairwise (· < ·))

/-- The item reported is the lowest that fails. -/
theorem failingItems_head {own : Station} {c : ConfigBlock} {i : Nat} (h : ItemFails own c i) (hlow : ∀ j, j < i → ¬ItemFails own c j) :
    ∃ rest, failingItems own c = i :: rest := by
  have hmem := (mem_failingItems own c i).2 h
  have hsorted := failingItems_sorted own c
  cases hl : failingItems own c with
  | nil => simp [hl] at hmem
  | cons j rest =>
    rw [hl] at hmem hsorted
    have hj : ItemFails own c j := (mem_failingItems own c j).1 (by simp [hl])
    obtain rfl | hi := List.mem_cons.1 hmem
    · exact ⟨rest, rfl⟩
    · exact absurd hj (hlow j (List.rel_of_pairwise_cons hsorted hi))

/-- Settles O15: the item of the answer is the head of the items that fail, and without one the transition is made. -/
theorem joinCommand : Obligations.JoinCommand := by
  intro s arg hmode
  have hreset : s.ctl.mode ≠ .reset := by simp [hmode]
  have hconfig : ¬(taken 0x01 arg s).ctl.mode ≠ .config := not_not.2 hmode
  refine ⟨fun i hi hlow => ?_, fun hnone => ?_⟩
  · obtain ⟨rest, hitems⟩ := failingItems_head hi hlow
    have hitems' : failingItems (taken 0x01 arg s).ctl.ownId (taken 0x01 arg s).ctl.config = i :: rest := hitems
    refine command_answered hreset ?_
    rw [State.join, if_neg hconfig, hitems']
  · have hitems : failingItems (taken 0x01 arg s).ctl.ownId (taken 0x01 arg s).ctl.config = [] :=
      List.eq_nil_iff_forall_not_mem.2 fun i hi => hnone i ((mem_failingItems _ _ i).1 hi)
    refine congrArg Host.Outcome.next ((command_taken hreset 0x01 arg _).trans ?_)
    rw [State.join, if_neg hconfig, hitems]
    dsimp only
    rw [State.transition_eq]
    rfl

/-! ### RESTART (R109) -/

/-- Settles O17: every block is put back, and what is kept is named. -/
theorem restartCommand : Obligations.RestartCommand := by
  intro s arg straps hmode
  have hreset : s.ctl.mode ≠ .reset := by rintro h; simp [h] at hmode
  have hrestart : (taken 0x03 arg s).restartStation straps = (taken 0x03 arg s).restart straps := restartStation_taken straps (by exact hmode)
  refine ⟨_, congrArg Host.Outcome.next ((command_taken hreset 0x03 arg _).trans (congrArg (State.respond true 0) hrestart)), ?_,
    rfl, rfl, rfl, rfl, rfl, rfl, rfl,
    rfl, rfl, rfl⟩
  exact blocksCleared_of rfl rfl rfl rfl rfl ⟨rfl, rfl, rfl, rfl, rfl⟩ rfl rfl rfl

/-! ### CLAIM and WITHDRAW (R145, R146) -/

theorem claimRegion_already {s : State} {r : Region} (h : (s.entry r).role.owns = true ∨ (s.liveRecord r).isSome = true) :
    s.claimRegion r = s.setResult .already := if_pos h

theorem claimRegion_claimable {s : State} {r : Region} (hmode : s.ctl.mode = .active) (hq : s.ctl.leaveQueued = false) (h : Claimable s r) :
    s.claimRegion r = (claimed r .command s).setResult .done := by
  rw [State.claimRegion, if_neg (by simp [h.1, h.2.1]), if_pos ((claimTaken_iff hmode r).2 h), State.requestClaim_eq _ _ _ hq]

theorem claimRegion_full {s : State} {r : Region} (hmode : s.ctl.mode = .active) (howns : (s.entry r).role.owns = false)
    (hlive : s.liveRecord r = none) (h : ¬Claimable s r) : s.claimRegion r = s.setResult .noRecord := by
  rw [State.claimRegion, if_neg (by simp [howns, hlive]), if_neg (mt (claimTaken_iff hmode r).1 h)]

theorem withdrawClaim_live {s : State} {r : Region} {c : ClaimRecord} (h : s.liveRecord r = some c) :
    s.withdrawClaim r = (s.failRecord r .withdrawn).setResult .done := if_pos (by simp [h])

theorem withdrawClaim_none {s : State} {r : Region} (h : s.liveRecord r = none) : s.withdrawClaim r = s.setResult .noClaim :=
  if_neg (by simp [h])

/-- A failure of a claim and the mailbox do not touch: the command is stored before it and its result written after. -/
theorem failed_mailed {s : State} {r : Region} {c : ClaimRecord} {code : Byte} {arg : Option Byte} {x : Result} {why : FailReason} {t : State}
    (h : Failed r why c (taken code arg s) t) :
    Failed r why c { s with cmd := mailed x code arg s.cmd } { ((t.setResult x).respond true 0) with port := s.port } := by
  refine ⟨?_, h.parked, h.freed, h.withdrawn, h.closing, h.others, ?_⟩
  · change { t.cmd with result := x } = _
    rw [h.cmd]
    rfl
  · exact State.eq_of rfl (congrArg State.image h.frame :) (congrArg State.dir h.frame :) (congrArg State.pub h.frame :)
      (congrArg State.claims h.frame :) (congrArg State.roster h.frame :) (congrArg State.ctl h.frame :) rfl rfl rfl
      (congrArg State.pending h.frame :)

/-- Settles O18: CLAIM by R42's tests in order, WITHDRAW by whether a live record stands. -/
theorem claimAndWithdrawCommands : Obligations.ClaimAndWithdrawCommands := by
  intro s arg r hmode hq harg
  have hreset : s.ctl.mode ≠ .reset := by simp [hmode]
  have hclaim := regionCommand_act (code := 0x10) State.claimRegion hmode harg
  have hwithdraw := regionCommand_act (code := 0x11) State.withdrawClaim hmode harg
  refine ⟨fun h => command_answered hreset (hclaim.trans (claimRegion_already h)), fun h => ?_, fun howns hlive h =>
    command_answered hreset (hclaim.trans (claimRegion_full hmode howns hlive h)), fun c hc => ?_, fun hnone =>
    command_answered hreset (hwithdraw.trans (withdrawClaim_none (by exact hnone)))⟩
  · refine congrArg Host.Outcome.next ((command_taken hreset 0x10 arg _).trans ?_)
    rw [hclaim, claimRegion_claimable (by exact hmode) (by exact hq) (by exact h)]
    rfl
  · have hlive : (taken 0x11 arg s).liveRecord r = some c := hc
    refine ⟨_, congrArg Host.Outcome.next (command_taken hreset 0x11 arg _), ?_, ?_⟩
    all_goals rw [hwithdraw, withdrawClaim_live hlive]
    · simp [State.respond, answered, taken]
    · exact failed_mailed (State.failRecord_failed r .withdrawn c _ hlive hq)

/-! ### RELEASE (R147) -/

/-- The region of a RELEASE command: held cleared, forced set. -/
def forcedOut (r : Region) (s : State) : State :=
  { s with
    dir := put s.dir r { s.entry r with held := false }
    claims := { s.claims with serve := put s.claims.serve r { s.serving r with forced := true } } }

theorem forcedOut_entry (r : Region) (s : State) : (forcedOut r s).entry r = { s.entry r with held := false } := pick_put_same _ _ _

theorem forcedOut_serving (r : Region) (s : State) : (forcedOut r s).serving r = { s.serving r with forced := true } := pick_put_same _ _ _

theorem onOwned_owner {s : State} {r : Region} (act : Region → State → State) (h : (s.entry r).role = .owner) :
    s.onOwned act r = (act r s).setResult .done := if_pos h

theorem onOwned_notOwner {s : State} {r : Region} (act : Region → State → State) (h : (s.entry r).role ≠ .owner) :
    s.onOwned act r = s.setResult .notOwner := if_neg h

/-- A command on an owned region, taken in ACTIVE. -/
theorem ownedCommand {s : State} {code : Byte} {arg : Option Byte} {r : Region} (hmode : s.ctl.mode = .active)
    (harg : (commandArgument arg s).toNat = r.val) (hrole : (s.entry r).role = .owner) (act : Region → State → State) :
    s.command code arg (State.regionCommand (State.onOwned act)) = ((act r (taken code arg s)).setResult .done).respond true 0 := by
  rw [command_taken (by simp [hmode]), regionCommand_act _ hmode harg, onOwned_owner act (by exact hrole)]

theorem ownedCommand_notOwner {s : State} {code : Byte} {arg : Option Byte} {r : Region} (hmode : s.ctl.mode = .active)
    (harg : (commandArgument arg s).toNat = r.val) (hrole : (s.entry r).role ≠ .owner) (act : Region → State → State) :
    (Host.Outcome.next (s.command code arg (State.regionCommand (State.onOwned act))) : Host.Outcome State Fault Refusal) =
      .next (commandAnswered .notOwner code arg s) :=
  command_answered (by simp [hmode]) ((regionCommand_act _ hmode harg).trans (onOwned_notOwner act (by exact hrole)))

/-- Settles O19: with held cleared and forced set, the region is served or released as its queue and what is pending allow. -/
theorem releaseCommand : Obligations.ReleaseCommand := by
  intro s arg r hmode hq harg port cmd
  set u := forcedOut r (taken 0x12 arg s) with hu
  have hentry : u.entry r = { s.entry r with held := false } := forcedOut_entry r _
  have hserving : u.serving r = { s.serving r with forced := true } := forcedOut_serving r _
  have hclaimants : u.claimants r = s.claimants r := rfl
  have howned (hrole : (s.entry r).role = .owner) : exec (.releaseCommand arg) s = .next (((if (s.claimants r).isEmpty then u.requestRelease r
      else u.serve r).setResult .done).respond true 0) :=
    congrArg Host.Outcome.next (ownedCommand hmode harg hrole State.forceOut)
  refine ⟨fun h => ownedCommand_notOwner hmode harg h _, fun hrole hhandover hrelease hqueue => ?_, fun hrole hhandover hrelease hqueue => ?_,
    fun hrole hpending => ?_⟩
  · have hserve : u.serve r = served r u :=
      serve_servable ⟨by simp [hentry, hrole], by rwa [hclaimants], by simp [hserving, hhandover], by simp [hentry, hrelease],
        Or.inl ⟨hmode, Or.inl (by rw [hserving])⟩⟩ hq
    rw [howned hrole, if_neg (by simpa using hqueue), hserve, served, hserving, hu, forcedOut]
    simp only [put_put]
    rfl
  · have hrequest : u.requestRelease r = releasing r u :=
      requestRelease_taken (by simp [hentry, hrole]) (by simp [hentry, hrelease]) (by simp [hserving, hhandover]) hq
    rw [howned hrole, if_pos (by simp [hqueue]), hrequest, releasing, hentry, hu, forcedOut]
    simp only [put_put]
    rfl
  · have hstay : (if (s.claimants r).isEmpty then u.requestRelease r else u.serve r) = u := by
      split
      · refine requestRelease_refused (Or.inr ?_)
        rw [hentry, hserving]
        exact hpending.symm.imp_right Or.inl
      · refine serve_unservable fun ⟨_, _, h1, h2, _⟩ => ?_
        rw [hserving] at h1
        rw [hentry] at h2
        exact hpending.elim (· h1) (· h2)
    rw [howned hrole, hstay]
    rfl

/-! ### HOLD, UNHOLD and REFRESH (R148, R149) -/

/-- Settles O20: each act at an owned region, UNHOLD by R62's serving condition. -/
theorem holdUnholdRefresh : Obligations.HoldUnholdRefresh := by
  intro s arg r hmode hq hbarred harg port unheld isServed
  refine ⟨fun hrole => ?_, fun hrole => ⟨ownedCommand_notOwner hmode harg hrole _, ownedCommand_notOwner hmode harg hrole _,
    ownedCommand_notOwner hmode harg hrole _⟩⟩
  set u : State := (taken 0x14 arg s).setEntry r { s.entry r with held := false } with hu
  have hentry : u.entry r = { s.entry r with held := false } := pick_put_same _ _ _
  have hservable : Servable u r ↔ isServed := by
    have hmode' : u.ctl.mode = .active := hmode
    have hserving : u.serving r = s.serving r := rfl
    have hclaimants : u.claimants r = s.claimants r := rfl
    simp [Servable, isServed, hentry, hrole, hmode', hserving, hclaimants]
  have hunhold : exec (.unholdCommand arg) s = .next (((u.serve r).setResult .done).respond true 0) :=
    congrArg Host.Outcome.next (ownedCommand hmode harg hrole State.unhold)
  refine ⟨congrArg Host.Outcome.next (ownedCommand hmode harg hrole State.hold), fun h => ?_, fun h => ?_, ?_⟩
  · rw [hunhold, serve_servable (hservable.2 h) hq]
    rfl
  · rw [hunhold, serve_unservable (mt hservable.1 h)]
    rfl
  · refine congrArg Host.Outcome.next ((ownedCommand hmode harg hrole State.addFull).trans ?_)
    rw [State.addFull_eq r (taken 0x15 arg s) hbarred, fullyAdded, if_pos (by exact hrole)]
    rfl

end Sys2Proof.Machine

/-! Acts taken for every region in ascending order: serving, releasing, and the failure of every claim; and the LEAVE command, which
takes the three one after another (O16). -/

namespace Sys2Proof.Machine

open Sys2Proof.Safety

/-! ### Serving and releasing every region -/

theorem handAll_append (m : Region → Mark) (rs : List Region) (r : Region) (l : LineUnit) :
    handAll m (rs ++ [r]) l = handLine (m r) (handAll m rs l) := by simp [handAll]

theorem handAll_filter_append (m : Region → Mark) (p : Region → Bool) (rs : List Region) (r : Region) (l : LineUnit) :
    handAll m ((rs ++ [r]).filter p) l = if p r then handLine (m r) (handAll m (rs.filter p) l) else handAll m (rs.filter p) l := by
  rw [List.filter_append]
  cases h : p r <;> simp [h, handAll_append]

/-- One region more of a table of conditional changes. -/
theorem ofFn_append {α : Type} {p : Region → Prop} [DecidablePred p] (f g : Region → α) (done : List Region) {r : Region} (hr : r ∉ done) :
    (Vector.ofFn fun q => if q ∈ done ++ [r] ∧ p q then f q else g q) =
      if p r then put (Vector.ofFn fun q => if q ∈ done ∧ p q then f q else g q) r (f r)
      else Vector.ofFn fun q => if q ∈ done ∧ p q then f q else g q := by
  refine pick_ext fun q => ?_
  by_cases hq : q = r
  · subst hq
    by_cases hp : p q <;> simp [hp, hr]
  · by_cases hp : p r <;> simp [hp, hq, pick_put_other]

/-- Every region that may be served is given to its queue, in ascending order. -/
theorem forRegions_serve (s : State) (hq : s.ctl.leaveQueued = false) : s.forRegions State.serve = { s with
    claims := { s.claims with
      serve := Vector.ofFn fun r => if Servable s r then { s.serving r with handover := .queued } else s.serving r }
    line := handAll .handover (allRegions.filter fun r => Servable s r) s.line } := by
  have h := State.forRegions_induct (f := State.serve) (P := fun done t => t = { s with
    claims := { s.claims with
      serve := Vector.ofFn fun r => if r ∈ done ∧ Servable s r then { s.serving r with handover := .queued } else s.serving r }
    line := handAll .handover (done.filter fun r => Servable s r) s.line }) s ?_ ?_
  · simpa using h
  · refine State.eq_of rfl rfl rfl rfl ?_ rfl rfl rfl rfl rfl rfl
    have : (Vector.ofFn fun r => s.serving r) = s.claims.serve := pick_ext fun r => by simp [State.serving]
    simp [this]
  · intro done r t hr ht
    rw [ofFn_append (p := fun r => Servable s r) _ _ done hr, handAll_filter_append]
    have hpick : pick (Vector.ofFn fun q => if q ∈ done ∧ Servable s q then { s.serving q with handover := .queued } else s.serving q) r =
      s.serving r := by simp [hr]
    generalize (Vector.ofFn fun q => if q ∈ done ∧ Servable s q then { s.serving q with handover := .queued } else s.serving q) = V at *
    generalize handAll .handover (done.filter fun r => Servable s r) s.line = l at *
    have hserving : t.serving r = s.serving r := by rw [ht]; exact hpick
    have hservable : Servable t r ↔ Servable s r := by
      unfold Servable
      rw [hserving, ht]
      rfl
    by_cases hs : Servable s r
    · rw [serve_servable (hservable.2 hs) (by rw [ht]; exact hq), served, hserving, ht]
      simp [hs]
    · rw [serve_unservable (mt hservable.1 hs), ht]
      simp [hs]

/-- In LEAVING every region that is to be released is requested released, in ascending order. -/
theorem forRegions_releaseIfLeaving (s : State) : s.forRegions State.releaseIfLeaving = { s with
    dir := Vector.ofFn fun r => if Releasable s r then { s.entry r with release := .queued } else s.entry r
    line := handAll .release (allRegions.filter fun r => Releasable s r) s.line } := by
  have h := State.forRegions_induct (f := State.releaseIfLeaving) (P := fun done t => t = { s with
    dir := Vector.ofFn fun r => if r ∈ done ∧ Releasable s r then { s.entry r with release := .queued } else s.entry r
    line := handAll .release (done.filter fun r => Releasable s r) s.line }) s ?_ ?_
  · simpa using h
  · refine State.eq_of rfl rfl ?_ rfl rfl rfl rfl rfl rfl rfl rfl
    exact pick_ext fun r => by simp [State.entry]
  · intro done r t hr ht
    rw [ofFn_append (p := fun r => Releasable s r) _ _ done hr, handAll_filter_append]
    have hpick : pick (Vector.ofFn fun q => if q ∈ done ∧ Releasable s q then { s.entry q with release := .queued } else s.entry q) r =
      s.entry r := by simp [hr]
    generalize (Vector.ofFn fun q => if q ∈ done ∧ Releasable s q then { s.entry q with release := .queued } else s.entry q) = V at *
    generalize handAll .release (done.filter fun r => Releasable s r) s.line = l at *
    have hentry : t.entry r = s.entry r := by rw [ht]; exact hpick
    have hreleasable : Releasable t r ↔ Releasable s r := by
      unfold Releasable
      rw [hentry, ht]
      rfl
    by_cases hs : Releasable s r
    · rw [releaseIfLeaving_releasable (hreleasable.2 hs), releasing, hentry, ht]
      simp [hs]
    · rw [releaseIfLeaving_unreleasable (mt hreleasable.1 hs), ht]
      simp [hs]

/-! ### Every claim fails with LEAVE -/

theorem mem_marks_handLine (m n : Mark) (l : LineUnit) :
    m ∈ (handLine n l).marks ↔ m ∈ l.marks ∨ (m = n ∧ 16 ≤ l.queue.length) := by
  unfold handLine
  split_ifs with h
  · simp [h]
  · simp [Nat.not_lt.1 h]

theorem mem_marks_endedLine (m : Mark) (r : Region) (l : LineUnit) :
    m ∈ (endedLine r l).marks ↔ m ∈ l.marks ∧ Mark.ofRecord r m = false := by
  simp [endedLine, fellLine]

/-- The failure of one region's claim leaves the marks of the others. -/
theorem mem_marks_failedLine (s : State) (r : Region) (l : LineUnit) {m : Mark} (h : Mark.ofRecord r m = false) :
    m ∈ (failedLine s r l).marks ↔ m ∈ l.marks := by
  have hne : m ≠ .withdraw r true := by rintro rfl; simp [Mark.ofRecord] at h
  unfold failedLine
  cases s.liveRecord r with
  | none => rfl
  | some c =>
    dsimp only
    split_ifs <;> simp [mem_marks_handLine, mem_marks_endedLine, h, hne]

theorem failedRecord_congr (s : State) (r : Region) {l k : LineUnit} (h : Mark.withdraw r true ∈ l.marks ↔ Mark.withdraw r true ∈ k.marks) :
    failedRecord s l r = failedRecord s k r := by
  simp [failedRecord, h]

/-- The line and the record of a region whose live record failed with LEAVE. -/
theorem Failed.leave {r : Region} {c : ClaimRecord} {s t : State} (h : Failed r .leave c s t) :
    t.line = (if c.state = .asked ∨ c.state = .queued then handLine (.withdraw r true) (endedLine r s.line) else endedLine r s.line) ∧
    t.record r = if Mark.withdraw r true ∈ t.line.marks then
      some { c with answer := .stopped, patience := .stopped, orphanWait := .stopped } else none := by
  have hended : Mark.withdraw r true ∉ (endedLine r s.line).marks := by simp [mem_marks_endedLine, Mark.ofRecord]
  have hw : Withdraws .leave c ↔ c.state = .asked ∨ c.state = .queued := by simp [Withdraws]
  by_cases hstate : c.state = .asked ∨ c.state = .queued
  · rw [if_pos hstate]
    by_cases hroom : s.line.queue.length < 16
    · obtain ⟨hrecord, hline⟩ := h.withdrawn (hw.2 hstate) hroom
      rw [hrecord, hline]
      refine ⟨rfl, (if_neg ?_).symm⟩
      simp [mem_marks_handLine, hended, endedLine_length, hroom]
    · obtain ⟨hrecord, -, hline⟩ := h.closing (hw.2 hstate) (Nat.not_lt.1 hroom)
      rw [hrecord, hline]
      refine ⟨rfl, (if_pos ?_).symm⟩
      simp [mem_marks_handLine, endedLine_length, Nat.not_lt.1 hroom]
  · rw [if_neg hstate]
    obtain ⟨hrecord, hline⟩ := h.freed (mt hw.1 hstate)
    rw [hrecord, hline, if_neg hended]
    exact ⟨rfl, rfl⟩

/-- The state after the live records of the regions of a list failed with LEAVE. -/
structure AllLeft (done : List Region) (s t : State) : Prop where
  cmd : t.cmd = noticed (done.flatMap fun r => failNotices r .leave s) s.ctl.ticks s.cmd
  parked : t.parked = s.parked.filter fun w => !(decide (w.region ∈ done) && (s.liveRecord w.region).isSome)
  line : t.line = done.foldl (fun l r => failedLine s r l) s.line
  record : ∀ r, t.record r = if r ∈ done then failedRecord s t.line r else s.record r
  closing : ∀ q, q ∉ done → t.line.marks.any (Mark.isWithdraw q) = s.line.marks.any (Mark.isWithdraw q)
  frame : { t with cmd := s.cmd, parked := s.parked, line := s.line, claims := { t.claims with records := s.claims.records } } = s

theorem allLeft_nil (s : State) : AllLeft [] s s :=
  ⟨by simp [noticed_nil], by simp, rfl, fun _ => by simp, fun _ _ => rfl, rfl⟩

/-- A record not reached yet is as live as it was. -/
theorem AllLeft.live {done : List Region} {s t : State} (h : AllLeft done s t) {r : Region} (hr : r ∉ done) :
    t.liveRecord r = s.liveRecord r := by
  unfold State.liveRecord State.closing
  rw [h.record, if_neg hr, h.closing r hr]

theorem any_isWithdraw_congr {l k : List Mark} {q : Region} (h : ∀ b, Mark.withdraw q b ∈ l ↔ Mark.withdraw q b ∈ k) :
    l.any (Mark.isWithdraw q) = k.any (Mark.isWithdraw q) := by
  have key : ∀ l : List Mark, l.any (Mark.isWithdraw q) = true ↔ ∃ b, Mark.withdraw q b ∈ l := fun l => by
    rw [List.any_eq_true]
    constructor
    · rintro ⟨m, hm, hw⟩
      cases m with
      | withdraw x b =>
        obtain rfl : x = q := by simpa [Mark.isWithdraw] using hw
        exact ⟨b, hm⟩
      | _ => simp [Mark.isWithdraw] at hw
    · exact fun ⟨b, hb⟩ => ⟨_, hb, by simp [Mark.isWithdraw]⟩
  rw [Bool.eq_iff_iff, key, key]
  exact exists_congr h

theorem AllLeft.append {done : List Region} {s t : State} (h : AllLeft done s t) (hq : s.ctl.leaveQueued = false) {r : Region} (hr : r ∉ done) :
    AllLeft (done ++ [r]) s (t.failRecord r .leave) := by
  have hctl : t.ctl = s.ctl := (congrArg State.ctl h.frame :)
  have hlive := h.live hr
  have hmark (q : Region) (hqr : q ≠ r) (b : Bool) :
      Mark.withdraw q b ∈ (failedLine s r t.line).marks ↔ Mark.withdraw q b ∈ t.line.marks :=
    mem_marks_failedLine s r t.line (by simpa [Mark.ofRecord] using hqr)
  have hfold : (done ++ [r]).foldl (fun l r => failedLine s r l) s.line = failedLine s r t.line := by rw [List.foldl_append, ← h.line]; rfl
  cases hc : s.liveRecord r with
  | none =>
    have hline : failedLine s r t.line = t.line := by simp [failedLine, hc]
    rw [State.failRecord_none _ _ _ (hlive.trans hc)]
    refine ⟨?_, ?_, by rw [hfold, hline], fun q => ?_, fun q hqd => h.closing q fun hd => hqd (List.mem_append_left _ hd), h.frame⟩
    · rw [h.cmd]; simp [failNotices, hc]
    · rw [h.parked]
      refine List.filter_congr fun w _ => ?_
      by_cases hw : w.region = r <;> simp [hw, hc]
    · rw [h.record]
      by_cases hqr : q = r
      · subst hqr; simp [hr, failedRecord, hc]
      · simp [hqr]
  | some c =>
    have hf := State.failRecord_failed r .leave c t (hlive.trans hc) (by rw [hctl, hq])
    obtain ⟨hline, hrecord⟩ := Failed.leave hf
    have hline : (t.failRecord r .leave).line = failedLine s r t.line := by rw [hline]; simp [failedLine, hc]
    generalize t.failRecord r .leave = u at *
    have hnotices : failNotices r .leave t = failNotices r .leave s := by
      have hparked : t.parkedFor r = s.parkedFor r := by
        rw [State.parkedFor, h.parked, List.filter_filter]
        refine List.filter_congr fun w _ => ?_
        by_cases hw : w.region = r <;> simp [hw, hr]
      have hdir : t.entry r = s.entry r := (congrArg (fun u : State => u.entry r) h.frame :)
      rw [failNotices, failNotices, hlive, hparked, hdir]
    refine ⟨?_, ?_, by rw [hfold, hline], fun q => ?_, fun q hqd => ?_, ?_⟩
    · rw [hf.cmd, hctl, h.cmd, noticed_append, hnotices, List.flatMap_append, List.flatMap_singleton]
    · rw [hf.parked, h.parked, List.filter_filter]
      refine List.filter_congr fun w _ => ?_
      by_cases hw : w.region = r <;> simp [hw, hc]
    · by_cases hqr : q = r
      · subst hqr
        rw [if_pos (by simp), hrecord]
        simp [failedRecord, hc]
      · rw [hf.others q hqr, h.record]
        simp only [List.mem_append, List.mem_singleton, hqr, or_false]
        rw [failedRecord_congr s q (l := u.line) (k := t.line) (by rw [hline]; exact hmark q hqr true)]
    · have hqr : q ≠ r := fun e => hqd (by simp [e])
      rw [← h.closing q fun hd => hqd (List.mem_append_left _ hd), hline]
      exact any_isWithdraw_congr (hmark q hqr)
    · have h1 := congrArg
        (fun v : State => { v with cmd := s.cmd, parked := s.parked, line := s.line, claims := { v.claims with records := s.claims.records } }) hf.frame
      exact h1.trans h.frame

/-- R117: every live claim fails with LEAVE. -/
theorem forRegions_failLeave (s : State) (hq : s.ctl.leaveQueued = false) :
    AllLeft allRegions s (s.forRegions fun r s => s.failRecord r .leave) :=
  State.forRegions_induct (P := fun done t => AllLeft done s t) s (allLeft_nil s) fun _ _ _ hr h => h.append hq hr

/-! ### The LEAVE command -/

/-- Handing frames over changes no WITHDRAW mark. -/
theorem mem_marks_handAll (m : Region → Mark) (rs : List Region) (l : LineUnit) {n : Mark} (h : ∀ r, n ≠ m r) :
    n ∈ (handAll m rs l).marks ↔ n ∈ l.marks := by
  induction rs generalizing l with
  | nil => rfl
  | cons r rs ih => exact (ih (handLine (m r) l)).trans (by simp [mem_marks_handLine, h r])

/-- R118: whether the leaving work is done is not a matter of the mailbox and the host port. -/
theorem leaveIfDone_mailbox (s : State) (x : Result) :
    ((s.leaveIfDone).setResult x).respond true 0 = ((s.setResult x).respond true 0).leaveIfDone := by
  have hdone : ((s.setResult x).respond true 0).leavingDone = s.leavingDone := rfl
  unfold State.leaveIfDone
  rw [hdone]
  by_cases h : s.ctl.mode = .leaving ∧ s.ctl.leaveQueued = false ∧ s.leavingDone = true
  · rw [if_pos h, if_pos (by exact h)]
    unfold State.queueLeave
    rfl
  · rw [if_neg h, if_neg (by exact h)]

/-- The station as it enters LEAVING, before its claims fail (R117). -/
def enteredLeaving (s : State) : State :=
  { s with
    ctl := { s.ctl with mode := .leaving, cause := .command, leave := .running 500, backlog := [] }
    cmd := transited .leaving .command s.ctl.ticks s.cmd }

theorem enterLeaving_eq (s : State) : s.enterLeaving =
    (((((enteredLeaving s).forRegions fun r s => s.failRecord r .leave).forRegions State.serve).forRegions
      State.releaseIfLeaving).leaveIfDone) := by
  rw [State.enterLeaving, State.transition_eq]
  rfl

/-- The failures of the claims leave everything but the records, the line, the notices and the parked writes. -/
theorem AllLeft.fields {done : List Region} {s t : State} (h : AllLeft done s t) :
    t.port = s.port ∧ t.image = s.image ∧ t.dir = s.dir ∧ t.pub = s.pub ∧ t.claims.serve = s.claims.serve ∧
      t.claims.table = s.claims.table ∧ t.roster = s.roster ∧ t.ctl = s.ctl ∧ t.pending = s.pending :=
  ⟨(congrArg State.port h.frame :), (congrArg State.image h.frame :), (congrArg State.dir h.frame :), (congrArg State.pub h.frame :),
    (congrArg (fun u : State => u.claims.serve) h.frame :), (congrArg (fun u : State => u.claims.table) h.frame :),
    (congrArg State.roster h.frame :), (congrArg State.ctl h.frame :), (congrArg State.pending h.frame :)⟩

/-- What may be served is read from the directory, the Claim Engine's tables and the station state. -/
theorem servable_congr {s t : State} (hdir : t.dir = s.dir) (hserve : t.claims.serve = s.claims.serve)
    (htable : t.claims.table = s.claims.table) (hmode : t.ctl.mode = s.ctl.mode) (hq : t.ctl.leaveQueued = s.ctl.leaveQueued) (r : Region) :
    Servable t r ↔ Servable s r := by
  simp only [Servable, State.entry, State.serving, State.claimants, hdir, hserve, htable, hmode, hq]

theorem releasable_congr {s t : State} {r : Region} (hdir : t.dir = s.dir) (hserving : (t.serving r).handover = (s.serving r).handover)
    (htable : t.claims.table = s.claims.table) (hmode : t.ctl.mode = s.ctl.mode) (hq : t.ctl.leaveQueued = s.ctl.leaveQueued) :
    Releasable t r ↔ Releasable s r := by
  simp only [Releasable, State.entry, State.claimants, hdir, hserving, htable, hmode, hq]

/-- Entry to LEAVING, but for the LEAVE frame: the claims fail, and then the owned regions are served and released. -/
theorem left_eq {s u : State} (hu : AllLeft allRegions (enteredLeaving s) u) (hq : s.ctl.leaveQueued = false) :
    let w : State := { s with ctl := { s.ctl with mode := .leaving } }
    let line := handAll .release (allRegions.filter fun r => Releasable w r)
      (handAll .handover (allRegions.filter fun r => Servable w r) (allRegions.foldl (fun l r => failedLine s r l) s.line))
    (u.forRegions State.serve).forRegions State.releaseIfLeaving = { s with
      ctl := { s.ctl with mode := .leaving, cause := .command, leave := .running 500, backlog := [] }
      cmd := { noticed (.state .leaving .command :: allRegions.flatMap fun r => failNotices r .leave s) s.ctl.ticks s.cmd with
        stateChange := true }
      parked := s.parked.filter fun w => (s.liveRecord w.region).isNone
      dir := Vector.ofFn fun r => if Releasable w r then { s.entry r with release := .queued } else s.entry r
      claims := { s.claims with
        records := Vector.ofFn fun r => failedRecord s line r
        serve := Vector.ofFn fun r => if Servable w r then { s.serving r with handover := .queued } else s.serving r }
      line := line } := by
  intro w line
  obtain ⟨hport, himage, hdir, hpub, hserve, htable, hroster, hctl, hpending⟩ := hu.fields
  have hentry (r : Region) : u.entry r = s.entry r := congrArg (pick · r) hdir
  have hserving (r : Region) : u.serving r = s.serving r := congrArg (pick · r) hserve
  have hservable (r : Region) : Servable u r ↔ Servable w r :=
    servable_congr hdir hserve htable (by rw [hctl, enteredLeaving]) (by rw [hctl, enteredLeaving]) r
  have hserved := forRegions_serve u (by rw [hctl]; exact hq)
  simp only [hservable, hserving] at hserved
  generalize u.forRegions State.serve = x at hserved
  have hreleasable (r : Region) : Releasable x r ↔ Releasable w r := by
    by_cases hs : Servable w r
    · refine iff_of_false (fun h => hs.2.1 ?_) fun h => hs.2.1 h.2.2.2.1
      rw [← h.2.2.2.1, hserved]
      exact congrArg (fun t : List TableEntry => (t.filter fun e => e.region == r).map TableEntry.claimant) htable.symm
    · refine releasable_congr (by rw [hserved]; exact hdir) ?_ (by rw [hserved]; exact htable) (by rw [hserved, hctl]; rfl)
        (by rw [hserved, hctl]; rfl)
      rw [hserved]
      simp only [State.serving, pick_ofFn, hs, if_false]
      rfl
  have hxdir : x.dir = s.dir := by rw [hserved]; exact hdir
  have hentry' (r : Region) : x.entry r = s.entry r := congrArg (pick · r) hxdir
  rw [forRegions_releaseIfLeaving]
  simp only [hreleasable, hentry']
  have hline : u.line = allRegions.foldl (fun l r => failedLine s r l) s.line := hu.line
  rw [hserved, hline]
  refine State.eq_of hport himage rfl hpub ?_ hroster hctl ?_ ?_ rfl hpending
  · have hrecords : u.claims.records = Vector.ofFn fun r => failedRecord s line r := pick_ext fun r => by
      rw [pick_ofFn]
      refine (hu.record r).trans ((if_pos (mem_allRegions r)).trans ?_)
      refine failedRecord_congr s r ?_
      rw [hline, mem_marks_handAll _ _ _ (by simp), mem_marks_handAll _ _ _ (by simp)]
    dsimp only
    rw [hrecords, htable]
    rfl
  · exact hu.parked.trans (List.filter_congr fun w _ => by simp; rfl)
  · have hall := noticed_append [.state .leaving .command] (allRegions.flatMap fun r => failNotices r .leave s) s.ctl.ticks s.cmd
    rw [List.singleton_append] at hall
    dsimp only
    rw [← hall]
    exact hu.cmd

/-- A command that was taken and answered, its effect made. -/
theorem answered_state (code : Byte) (arg : Option Byte) (x : Result) (s : State) (ctl : Controller) (cmd : CommandUnit)
    (parked : List ParkedWrite) (dir : Vector DirEntry 128) (claims : ClaimEngine) (line : LineUnit) :
    (({ taken code arg s with ctl := ctl, cmd := cmd, parked := parked, dir := dir, claims := claims, line := line } : State).setResult
      x).respond true 0 = { s with
        port := answered true 0 s.port, ctl := ctl, cmd := { cmd with result := x }, parked := parked, dir := dir, claims := claims
        line := line } := rfl

/-- Settles O16: the claims fail, the regions are served and released, and the LEAVE frame follows where nothing is left to do. -/
theorem leaveCommand : Obligations.LeaveCommand := by
  intro s arg hmode hq v failed line
  refine congrArg Host.Outcome.next ((command_taken (by simp [hmode]) 0x02 arg _).trans ?_)
  rw [State.leaveCell, if_pos (by exact hmode), enterLeaving_eq, leaveIfDone_mailbox,
    left_eq (forRegions_failLeave (enteredLeaving (taken 0x02 arg s)) hq) (by exact hq)]
  rw [answered_state]
  refine congrArg State.leaveIfDone (State.eq_of rfl rfl ?_ rfl ?_ rfl rfl ?_ ?_ ?_ rfl)
  · rfl
  · rfl
  · rfl
  · rfl
  · rfl

end Sys2Proof.Machine

/-! Carrier, deferral waits and the transmit scheduler (O22 to O25). -/

namespace Sys2Proof.Machine

open Sys2Proof.Safety

/-! ### Deferral waits (R160) -/

theorem deferralWait_eq (own : Station) (rotation : BitVec 5) (n : Nat) (job : Job) :
    deferralWait own rotation n job = waitLength own rotation n (isUpdate job) := by
  have hrank : deferralRank own rotation n = (((own.val : Int) - rotation.toNat + 7 * ((n - 1 : Nat) : Int)) % 32).toNat := by
    have hrotation : rotation.toNat < 32 := rotation.isLt
    unfold deferralRank
    omega
  unfold deferralWait waitLength
  cases job <;> simp [hrank, isUpdate]

theorem deferralRank_lt (own : Station) (rotation : BitVec 5) (n : Nat) : deferralRank own rotation n < 32 :=
  Nat.mod_lt _ (by decide)

/-- Two stations that hold one rotation counter have distinct ranks. -/
theorem deferralRank_inj {own other : Station} {rotation : BitVec 5} {n : Nat}
    (h : deferralRank other rotation n = deferralRank own rotation n) : other = own := by
  unfold deferralRank at h
  have hrotation : rotation.toNat < 32 := rotation.isLt
  exact Fin.ext (by omega)

/-- The wait by the class of the frame. -/
theorem deferralWait_rank (own : Station) (rotation : BitVec 5) (n : Nat) (job : Job) :
    deferralWait own rotation n job = 4 + 3 * (deferralRank own rotation n + if isUpdate job then 32 else 0) := by
  cases job <;> rfl

/-- Settles O23: the ranks of distinct stations are distinct and below 32, and an UPDATE's wait is 32 slots later. -/
theorem deferralWaits : Obligations.DeferralWaits := by
  intro own rotation n job _ _
  have hrank := deferralRank_lt own rotation n
  refine ⟨deferralWait_eq own rotation n job, fun other job' hne heq => hne ?_, fun h => ?_, fun h => ?_, fun h hlast => ?_⟩
  · have hrank' := deferralRank_lt other rotation n
    rw [deferralWait_rank, deferralWait_rank] at heq
    refine deferralRank_inj (rotation := rotation) (n := n) ?_
    split_ifs at heq <;> omega
  · rw [deferralWait_rank, h, if_neg (by decide)]; omega
  · rw [deferralWait_rank, h, if_pos rfl]; omega
  · rw [deferralWait_rank, h, if_neg (by decide), deferralRank, hlast]
    omega

/-- A deferral wait begins for a frame in flight that is not being sent. -/
theorem startWait_eq (s : State) : s.startWait = { s with line := { s.line with flight := s.line.flight.map fun f =>
    if f.transmitting = true then f
    else { f with wait := some (waitLength s.ctl.ownId s.line.rotation f.attempt (isUpdate f.job)) } } } := by
  simp only [State.startWait, deferralWait_eq]

/-! ### Carrier and idle (R159) -/

/-- The rotation counter after a burst. -/
theorem nextRotation_eq {rotation next : BitVec 5} {b : Burst}
    (hgood : ∀ source, b = .good source → next.toNat = (source.toNat + 1) % 32)
    (hother : (∀ source, b ≠ .good source) → next.toNat = (rotation.toNat + 1) % 32) : nextRotation rotation b = next := by
  refine BitVec.eq_of_toNat_eq ?_
  cases b with
  | good source => rw [hgood source rfl]; simp [nextRotation]
  | unknown => rw [hother (by simp)]; simp [nextRotation]
  | bad => rw [hother (by simp)]; simp [nextRotation]

/-- Settles O22: carrier by its one branch, idle by the next rotation counter and the wait that begins with it. -/
theorem carrierAndIdle : Obligations.CarrierAndIdle := by
  intro s hmode
  refine ⟨fun hcarrier => congrArg Host.Outcome.next (if_neg (by simp [hmode, hcarrier])), fun h rotation hgood hother => ?_⟩
  have hidle : ¬(s.ctl.mode = .reset ∨ (s.line.carrier = false ∧ s.line.burst = .unknown)) := by
    rintro (hm | ⟨hc, hb⟩)
    · exact hmode hm
    · simp [hc, hb] at h
  refine congrArg Host.Outcome.next ((if_neg hidle).trans ?_)
  rw [nextRotation_eq hgood hother, startWait_eq]

/-! ### The publish offer (R26) -/

theorem find_region (p : Region → Bool) (r : Region) : allRegions.find? p = some r ↔ p r = true ∧ ∀ q, q < r → p q = false := by
  rw [allRegions, List.find?_eq_some_iff_getElem]
  simp only [List.length_finRange, List.getElem_finRange]
  constructor
  · rintro ⟨hp, i, hi, rfl, hlow⟩
    exact ⟨hp, fun q hq => by simpa using hlow q.val hq⟩
  · rintro ⟨hp, hlow⟩
    exact ⟨hp, r.val, r.isLt, rfl, fun j hj => by simpa using hlow ⟨j, hj.trans r.isLt⟩ hj⟩

theorem find_region_none (p : Region → Bool) : allRegions.find? p = none ↔ ∀ q, p q = false := by
  simp [List.find?_eq_none]

/-- A region of the set is offered: the lowest above the pointer, or else the lowest. -/
theorem offered_iff (s : State) (r : Region) : s.offered = some r ↔ (s.pubEntry r).isSome = true ∧
    ((s.pub.pointer < r ∧ ∀ q, s.pub.pointer < q → q < r → s.pubEntry q = none) ∨
      ((∀ q, s.pub.pointer < q → s.pubEntry q = none) ∧ ∀ q, q < r → s.pubEntry q = none)) := by
  unfold State.offered
  cases hfind : allRegions.find? fun r => s.pub.pointer < r && (s.pubEntry r).isSome with
  | some p =>
    obtain ⟨hp, hlow⟩ := (find_region _ p).1 hfind
    simp only [Bool.and_eq_true, decide_eq_true_eq] at hp
    have hnone (q : Region) (h : s.pub.pointer < q) (hq : q < p) : s.pubEntry q = none := by
      simpa [h] using hlow q hq
    constructor
    · intro h
      obtain rfl : p = r := by simpa using h
      exact ⟨hp.2, Or.inl ⟨hp.1, hnone⟩⟩
    · rintro ⟨hr, ⟨hpointer, hbetween⟩ | ⟨habove, -⟩⟩
      · refine congrArg some (le_antisymm (not_lt.1 fun h => ?_) (not_lt.1 fun h => ?_))
        · simp [hnone r hpointer h] at hr
        · simp [hbetween p hp.1 h] at hp
      · simp [habove p hp.1] at hp
  | none =>
    have habove (q : Region) (h : s.pub.pointer < q) : s.pubEntry q = none := by
      simpa [h] using (find_region_none _).1 hfind q
    dsimp only
    rw [find_region]
    refine and_congr_right fun hr => ⟨fun h => Or.inr ⟨habove, fun q hq => by simpa using h q hq⟩, ?_⟩
    rintro (⟨hpointer, -⟩ | ⟨-, hlow⟩) q hq
    · simp [habove r hpointer] at hr
    · simp [hlow q hq]

theorem publishOffer_iff (s : State) (r : Region) : s.publishOffer = some r ↔ Offered s r := by
  unfold State.publishOffer Offered
  rw [← offered_iff]
  cases s.ctl.mode <;> simp

theorem publishOffer_none (s : State) : s.publishOffer = none ↔ ∀ r, ¬Offered s r := by
  rw [Option.eq_none_iff_forall_ne_some]
  exact forall_congr' fun r => not_congr (publishOffer_iff s r)

/-! ### What the scheduler takes (R169) -/

theorem takePresence_eq (s : State) : s.takePresence = { s with
    ctl := { s.ctl with presenceDue := false }
    line := { s.line with flight := some (entering .presence none false s), controlRun := s.runAfterControl } } := by
  rw [State.takePresence, startWait_eq]
  rfl

theorem takeOffer_eq {s : State} {r : Region} {e : PubEntry} (h : s.pubEntry r = some e) : s.takeOffer r = { s with
    pub := { s.pub with set := put s.pub.set r none, pointer := r }
    line := { s.line with flight := some (entering (.update r) (some (s.updateFrame r e)) false s), controlRun := 0 } } := by
  rw [State.takeOffer, h]
  dsimp only
  rw [startWait_eq]
  rfl

theorem takeHead_eq (e : QEntry) (rest : List QEntry) (s : State) : s.takeHead e rest = { s with
    line := { admitted { s.line with queue := rest } with
      flight := some (entering (.control e.frame) none e.fallen s), controlRun := s.runAfterControl }
    claims := { s.claims with records := match s.line.marks.head? with
      | some (.withdraw r _) => put s.claims.records r none
      | _ => s.claims.records } } := by
  unfold State.takeHead
  dsimp only
  rw [State.admitMark_eq, startWait_eq]
  unfold admitted
  cases s.line.marks <;> rfl

/-- The control run after a control-class frame is taken (R170). -/
theorem runAfterControl_offered {s : State} (h : ∃ r, Offered s r) : s.runAfterControl = min 4 (s.line.controlRun + 1) := by
  obtain ⟨r, hr⟩ := h
  rw [State.runAfterControl, (publishOffer_iff s r).2 hr]
  rfl

theorem runAfterControl_noOffer {s : State} (h : ∀ r, ¬Offered s r) : s.runAfterControl = 0 := by
  rw [State.runAfterControl, (publishOffer_none s).2 h]
  rfl

section Schedule

variable {s : State}

theorem schedule_presence (hm : s.mayTake = true) (hrun : s.line.controlRun ≠ 4 ∨ ∀ r, ¬Offered s r) (hdue : s.ctl.presenceDue = true) :
    s.schedule = s.takePresence := by
  rw [State.schedule, if_pos hm, hdue]
  cases ho : s.publishOffer with
  | none => rfl
  | some r =>
    have hrun : s.line.controlRun ≠ Config.runLimit := hrun.resolve_right fun h => h r ((publishOffer_iff s r).1 ho)
    simp [hrun]

theorem schedule_head (hm : s.mayTake = true) (hrun : s.line.controlRun ≠ 4 ∨ ∀ r, ¬Offered s r) (hdue : s.ctl.presenceDue = false)
    {e : QEntry} {rest : List QEntry} (hqueue : s.line.queue = e :: rest) : s.schedule = s.takeHead e rest := by
  rw [State.schedule, if_pos hm, hdue, hqueue]
  cases ho : s.publishOffer with
  | none => rfl
  | some r =>
    have hrun : s.line.controlRun ≠ Config.runLimit := hrun.resolve_right fun h => h r ((publishOffer_iff s r).1 ho)
    simp [hrun]

theorem schedule_offer (hm : s.mayTake = true) {r : Region} (ho : Offered s r)
    (h : s.line.controlRun = 4 ∨ (s.ctl.presenceDue = false ∧ s.line.queue = [])) : s.schedule = s.takeOffer r := by
  rw [State.schedule, if_pos hm, (publishOffer_iff s r).2 ho]
  by_cases hrun : s.line.controlRun = Config.runLimit
  · simp [hrun]
  · obtain ⟨hdue, hqueue⟩ := h.resolve_left hrun
    simp [hrun, hdue, hqueue]

theorem schedule_nothing (ho : ∀ r, ¬Offered s r) (hdue : s.ctl.presenceDue = false) (hqueue : s.line.queue = []) :
    s.schedule = s := by
  rw [State.schedule, (publishOffer_none s).2 ho, hdue, hqueue]
  simp

end Schedule

theorem mayTake_of {s : State} (hmode : s.ctl.mode.transmits = true) (hflight : s.line.flight = none) (hcarrier : s.line.carrier = false) :
    s.mayTake = true := by simp [State.mayTake, hmode, hflight, hcarrier]

/-- The records after the oldest mark was let in: that of a WITHDRAW mark is freed. -/
theorem admittedRecords (s : State) (r : Region) :
    pick (match s.line.marks.head? with
      | some (.withdraw r _) => put s.claims.records r none
      | _ => s.claims.records) r =
    if s.line.marks.head? = some (.withdraw r true) ∨ s.line.marks.head? = some (.withdraw r false) then none else s.record r := by
  cases hm : s.line.marks.head? with
  | none => simp [State.record]
  | some m =>
    cases m with
    | withdraw x l => cases l <;> simp [pick_put, State.record, eq_comm]
    | _ => simp [State.record]

/-- Settles O24: what the scheduler takes, source by source. -/
theorem schedulerOrder : Obligations.SchedulerOrder := by
  intro s
  refine ⟨fun hmode hflight hcarrier => ?_, fun h => ?_⟩
  · have hm := mayTake_of hmode hflight hcarrier
    refine ⟨fun hrun hdue => ?_, fun hrun hdue e rest hqueue => ?_, fun r ho h => ?_, fun ho hdue hqueue => ?_⟩
    · refine ⟨s.runAfterControl, runAfterControl_offered, runAfterControl_noOffer, ?_⟩
      change Host.Outcome.next s.schedule.leaveIfDone = _
      rw [schedule_presence hm hrun hdue, takePresence_eq]
    · refine ⟨s.runAfterControl, s.takeHead e rest, runAfterControl_offered, runAfterControl_noOffer, ?_, ?_, fun r => ?_, ?_⟩
      · change Host.Outcome.next s.schedule.leaveIfDone = _
        rw [schedule_head hm hrun hdue hqueue]
      all_goals rw [takeHead_eq]
      exact admittedRecords s r
    · obtain ⟨e, he⟩ := Option.isSome_iff_exists.1 ho.2.1
      refine ⟨s.updateFrame r e, ?_⟩
      change Host.Outcome.next s.schedule.leaveIfDone = _
      rw [schedule_offer hm ho h, takeOffer_eq he]
    · change Host.Outcome.next s.schedule.leaveIfDone = _
      rw [schedule_nothing ho hdue hqueue]
  · have hm : s.mayTake = false := by
      simp only [State.mayTake, Bool.and_eq_false_iff, Option.isNone_eq_false_iff, Option.isSome_iff_ne_none, Bool.not_eq_false']
      tauto
    change Host.Outcome.next s.schedule.leaveIfDone = _
    rw [State.schedule, if_neg (by simp [hm])]

/-! ### The capture of an UPDATE (R27) -/

/-- The span an UPDATE carries: the whole region, or the entry's span. -/
theorem updateFrame_payload (s : State) (r : Region) (e : PubEntry) (h : e.low ≤ e.high) : ∃ offset length data,
    s.updateFrame r e = { header := ownHeader s (some r) ((s.entry r).lastSeq + 1), payload := .update offset length data } ∧
    (e.full = true → offset = 0 ∧ length = 128) ∧
    (e.full = false → offset.toNat = e.low.val ∧ length.toNat = e.high.val - e.low.val + 1) ∧
    data.length = length.toNat ∧
    ∀ i, i < length.toNat → data.getD i 0 = imageRead s.image (128 * r.val + offset.toNat + i) := by
  have hlow : e.low.val ≤ e.high.val := h
  have hhigh := e.high.isLt
  have bytes (low len : Nat) (hlen : len ≤ 128) (hlow : low < 128) : ∃ offset length : Byte, offset = BitVec.ofNat 8 low ∧
      length = BitVec.ofNat 8 len ∧ offset.toNat = low ∧ length.toNat = len :=
    ⟨_, _, rfl, rfl, by simp; omega, by simp; omega⟩
  by_cases hwhole : (e.full || (e.low == 0 && e.high == 127)) = true
  · obtain ⟨offset, length, hoffset, hlength, ho, hl⟩ := bytes 0 128 (by decide) (by decide)
    refine ⟨offset, length, (List.range 128).map fun i => imageRead s.image (byteAddress r (0 + i)), ?_, fun _ => ⟨hoffset, hlength⟩,
      fun hfull => ?_, by simp [hl], fun i hi => ?_⟩
    · rw [State.updateFrame, hoffset, hlength]
      simp only [hwhole, if_true]
      rfl
    · simp only [hfull, Bool.false_or, Bool.and_eq_true, beq_iff_eq] at hwhole
      rw [ho, hl, hwhole.1, hwhole.2]
      decide
    · have hi : i < 128 := by omega
      simp [ho, byteAddress, List.getD_eq_getElem?_getD, hi]
  · obtain ⟨offset, length, hoffset, hlength, ho, hl⟩ := bytes e.low.val (e.high.val - e.low.val + 1) (by omega) (by omega)
    refine ⟨offset, length, (List.range (e.high.val - e.low.val + 1)).map fun i => imageRead s.image (byteAddress r (e.low.val + i)), ?_,
      fun hfull => ?_, fun _ => ⟨ho, hl⟩, by simp [hl], fun i hi => ?_⟩
    · rw [State.updateFrame, hoffset, hlength]
      simp only [hwhole]
      rfl
    · simp [hfull] at hwhole
    · rw [hl] at hi
      simp [ho, byteAddress, List.getD_eq_getElem?_getD, hi, Nat.add_assoc]

/-- Settles O25: the offer is taken, and its frame is the capture. -/
theorem updateCapture : Obligations.UpdateCapture := by
  intro s r e hmode hflight hcarrier ho he hspan h
  obtain ⟨offset, length, data, hframe, hrest⟩ := updateFrame_payload s r e hspan
  refine ⟨offset, length, data, ?_, hrest⟩
  change Host.Outcome.next s.schedule.leaveIfDone = _
  rw [schedule_offer (mayTake_of hmode hflight hcarrier) ho h, takeOffer_eq he, hframe]

end Sys2Proof.Machine

/-! The end of a deferral wait: captures and discards at the first attempt (O26 to O28), and the checks before each later one
(O29). -/

namespace Sys2Proof.Machine

open Sys2Proof.Safety

/-! ### The attempt by the job -/

theorem exec_deferralWaitExpiry {s : State} {f : Flight} (h : WaitEnds s f) :
    exec .deferralWaitExpiry s = .next (s.attempt f).leaveIfDone := by
  change Host.Outcome.next s.waitEnds = _
  rw [State.waitEnds, h.flight]
  exact congrArg Host.Outcome.next (if_pos ⟨h.mode, h.idle, h.waiting, h.silent⟩)

/-- The attempt leaves this state, whose LEAVE frame follows where the leaving work is done. -/
theorem attempt_ends {s t : State} {f : Flight} (h : WaitEnds s f) (ht : s.attempt f = t) :
    exec .deferralWaitExpiry s = .next t.leaveIfDone := by rw [exec_deferralWaitExpiry h, ht]

section Job

variable {s : State} {f : Flight}

theorem attempt_presence (h : f.job = .presence) : s.attempt f = s.startAttempt f s.presenceFrame := by simp [State.attempt, h]

theorem attempt_first {q : QFrame} (h : f.job = .control q) (hframe : f.frame = none) : s.attempt f = s.firstAttempt f q := by
  rw [State.attempt, h, hframe]

theorem attempt_later {q : QFrame} {x : Frame} (h : f.job = .control q) (hframe : f.frame = some x) :
    s.attempt f = s.laterAttempt f x q := by rw [State.attempt, h, hframe]

end Job

/-! ### The tests of R163 -/

/-- The owned list has a bit for each region that the station owns. -/
theorem ownedList_bit (s : State) (r : Region) : s.ownedList.getLsbD r.val = (s.entry r).role.owns := by
  have key : ∀ (l : List Region) (b : BitVec 128), (l.foldl (fun b q => if (s.entry q).role.owns then b ||| BitVec.twoPow 128 q.val else b)
      b).getLsbD r.val = (b.getLsbD r.val || l.any fun q => q == r && (s.entry q).role.owns) := by
    intro l
    induction l with
    | nil => simp
    | cons q l ih =>
      intro b
      rw [List.foldl_cons, ih, List.any_cons, ← Bool.or_assoc]
      congr 1
      have hbit : (BitVec.twoPow 128 q.val).getLsbD r.val = (q == r) := by
        rw [BitVec.getLsbD_twoPow, Bool.eq_iff_iff]
        simp [Fin.ext_iff]
      cases (s.entry q).role.owns
      · simp
      · rw [if_pos rfl, BitVec.getLsbD_or, hbit, Bool.and_true]
  have hany : (allRegions.any fun q => q == r && (s.entry q).role.owns) = (s.entry r).role.owns := by
    rw [Bool.eq_iff_iff, List.any_eq_true]
    refine ⟨fun ⟨q, _, hq⟩ => ?_, fun h => ⟨r, mem_allRegions r, by simpa using h⟩⟩
    obtain ⟨rfl, howns⟩ : q = r ∧ (s.entry q).role.owns = true := by simpa using hq
    exact howns
  rw [State.ownedList, key, hany]
  simp

/-- A PRESENCE by the state of the station and its owned list. -/
theorem presenceFrame_eq (s : State) : s.presenceFrame =
    { header := ownHeader s none 0, payload := .presence (ownProfile s) (if s.ctl.mode = .leaving then 2 else 1) s.ownedList } := rfl

theorem claimStands_iff (s : State) (r : Region) : s.claimStands r = true ↔ ∃ c, s.liveRecord r = some c ∧ c.state = .asking := by
  unfold State.claimStands
  cases s.liveRecord r <;> simp

theorem takeStands_iff (s : State) (r : Region) : s.takeStands r = true ↔
    (s.entry r).role = .orphan ∧ ∃ c, s.liveRecord r = some c ∧ c.kind = .orphan ∧ c.state = .taking := by
  unfold State.takeStands
  cases s.liveRecord r <;> simp

theorem takeStands_not {s : State} {r : Region}
    (h : (s.entry r).role ≠ .orphan ∨ ∀ c, s.liveRecord r = some c → c.kind = .normal ∨ c.state ≠ .taking) : s.takeStands r = false := by
  rw [← Bool.not_eq_true, takeStands_iff]
  rintro ⟨hrole, c, hc, hkind, hstate⟩
  obtain h | h := h
  · exact h hrole
  · simpa [hkind, hstate] using h c hc

/-- Settles O26: each kind of frame by its test and its capture. -/
theorem firstAttempts : Obligations.FirstAttempts := by
  intro s f hwait hframe sent discarded
  have first {q : QFrame} (hjob : f.job = .control q) {t : State} (h : s.firstAttempt f q = t) :
      exec .deferralWaitExpiry s = .next t.leaveIfDone := attempt_ends hwait ((attempt_first hjob hframe).trans h)
  have sends {q : QFrame} (hjob : f.job = .control q) {p : Payload} (h : s.firstAttempt f q = s.startAttempt f (s.plainFrame q p)) :
      exec .deferralWaitExpiry s = sent 0 p := by
    refine (first hjob h).trans ?_
    simp only [sent, hjob]
    rfl
  refine ⟨fun hjob => ⟨s.ownedList, ownedList_bit s, ?_⟩, fun hjob => sends hjob rfl, fun hjob => sends hjob rfl,
    fun r p q hjob _ => sends hjob rfl, fun r p b hjob => sends hjob rfl, fun r p b hjob => sends hjob rfl,
    fun r p b hjob => sends hjob rfl, fun r hjob => ⟨fun h => sends hjob ?_, fun h => first hjob ?_⟩,
    fun r l hjob => ⟨fun h => sends hjob (if_neg (by simp [h])), fun h => first hjob (if_pos h)⟩,
    fun r hjob => ⟨fun h => sends hjob (if_pos h), fun h => first hjob (if_neg (by simp [h]))⟩,
    fun r hjob => ⟨fun c hrole hc hkind hstate => first hjob ?_, fun h => first hjob (if_neg (by simp [takeStands_not h]))⟩⟩
  · refine (attempt_ends hwait (attempt_presence hjob)).trans ?_
    rw [presenceFrame_eq]
    simp only [sent, hjob]
    rfl
  · exact if_pos ⟨h.1, (claimStands_iff s r).2 h.2⟩
  · refine if_neg ?_
    rintro ⟨hfallen, hstands⟩
    obtain ⟨c, hc, hstate⟩ := (claimStands_iff s r).1 hstands
    obtain h | h := h
    · simp [h] at hfallen
    · exact h c hc hstate
  · exact if_pos ((takeStands_iff s r).2 ⟨hrole, c, hc, hkind, hstate⟩)

/-! ### HANDOVER (R64) -/

/-- The HANDOVER is discarded: its region's handover state returns to NONE. -/
def handoverEnded (r : Region) (e : ServeEntry) (s : State) : State :=
  { s with claims := { s.claims with serve := put s.claims.serve r { e with handover := .idle } }, line := unflown s.line }

section Handover

variable {s : State} {f : Flight} {r : Region}

theorem tryHandover_notOwner (hfallen : f.fallen = false) (hrole : (s.entry r).role ≠ .owner) :
    s.tryHandover f r = handoverEnded r (s.serving r) s := by
  rw [State.tryHandover, if_neg (by simp [hfallen]), if_pos hrole]
  rfl

/-- Without claimants, the forced region is to be released (R64, R71). -/
theorem tryHandover_noClaimants (hfallen : f.fallen = false) (hrole : (s.entry r).role = .owner) (hclaimants : s.claimants r = []) :
    s.tryHandover f r = State.releaseIfLeaving r (if (s.serving r).forced then
      (handoverEnded r { s.serving r with forced := false } s).requestRelease r else handoverEnded r (s.serving r) s) := by
  rw [State.tryHandover, if_neg (by simp [hfallen]), if_neg (not_not.2 hrole), hclaimants]
  dsimp only
  have hforced : (s.endFlight.handoverIdle r).setServing r { (s.endFlight.handoverIdle r).serving r with forced := false } =
      handoverEnded r { s.serving r with forced := false } s := by
    rw [State.handoverIdle, State.setServing_serving_same]
    simp only [State.setServing, put_put]
    rfl
  rw [hforced]
  rfl

theorem tryHandover_heldBack (hfallen : f.fallen = false) (hrole : (s.entry r).role = .owner) {p : Station} {rest : List Station}
    (hclaimants : s.claimants r = p :: rest) (h : s.ctl.mode ≠ .leaving ∧ s.heldBack r = true) :
    s.tryHandover f r = handoverEnded r (s.serving r) s := by
  rw [State.tryHandover, if_neg (by simp [hfallen]), if_neg (not_not.2 hrole), hclaimants]
  exact if_pos h

theorem tryHandover_claimed (hfallen : f.fallen = false) (hrole : (s.entry r).role = .owner) {p : Station} {rest : List Station}
    (hclaimants : s.claimants r = p :: rest) (h : ¬(s.ctl.mode ≠ .leaving ∧ s.heldBack r = true)) :
    s.tryHandover f r = if s.isPresent p = false then ((s.endFlight.removeClaimant r p).handoverIdle r).goOn r
      else s.captureHandover f r p (rest.take 3) := by
  rw [State.tryHandover, if_neg (by simp [hfallen]), if_neg (not_not.2 hrole), hclaimants]
  exact if_neg h

end Handover

theorem isPresent_iff (s : State) (p : Station) : s.isPresent p = true ↔ (s.peer p).state = .present := by simp [State.isPresent]

theorem handoverEnded_serving (r : Region) (e : ServeEntry) (s : State) : (handoverEnded r e s).serving r = { e with handover := .idle } :=
  pick_put_same _ _ _

/-- A region whose release is under way is not to be released again. -/
theorem releaseIfLeaving_releasing {s : State} {r : Region} (h : (s.entry r).release ≠ .idle ∨ s.ctl.leaveQueued = true) :
    s.releaseIfLeaving r = s := by
  refine releaseIfLeaving_unreleasable ?_
  rintro ⟨-, hq, -, -, -, hrelease⟩
  obtain h | h := h
  · exact h hrelease
  · simp [hq] at h

/-- Settles O27: the rows of R64's table in order. -/
theorem handoverCapture : Obligations.HandoverCapture := by
  intro s f r hwait hframe hjob ended heldBack ends
  have first {t : State} (h : s.tryHandover f r = t) : ends t := attempt_ends hwait ((attempt_first hjob hframe).trans h)
  have hheld : s.ctl.mode ≠ .leaving ∧ s.heldBack r = true ↔ heldBack := by simp only [heldBack, heldBack_iff]
  refine ⟨fun hfallen => first (if_pos hfallen), fun hfallen => ⟨fun hrole => first (tryHandover_notOwner hfallen hrole),
    fun hrole hclaimants => ⟨fun hforced hq hrelease => ?_, fun hforced h => ?_, fun hforced => ?_⟩, fun p rest hrole hclaimants =>
    ⟨fun h => first (tryHandover_heldBack hfallen hrole hclaimants (hheld.2 h)), fun h hpeer => ?_, fun h hpeer => ?_⟩⟩⟩
  · refine first ((tryHandover_noClaimants hfallen hrole hclaimants).trans ?_)
    rw [if_pos hforced, requestRelease_taken (s := handoverEnded r { s.serving r with forced := false } s) hrole hrelease
      (by rw [handoverEnded_serving]) hq]
    exact releaseIfLeaving_releasing (Or.inl (by simp [releasing, State.entry]))
  · refine first ((tryHandover_noClaimants hfallen hrole hclaimants).trans ?_)
    rw [if_pos hforced, requestRelease_refused (s := handoverEnded r { s.serving r with forced := false } s)
      (h.elim (fun hq => Or.inr (Or.inr (Or.inr hq))) fun hrelease => Or.inr (Or.inl hrelease))]
    exact releaseIfLeaving_releasing h.symm
  · refine first ((tryHandover_noClaimants hfallen hrole hclaimants).trans ?_)
    rw [if_neg (by simp [hforced])]
    exact congrArg (State.releaseIfLeaving r) (serve_noClaimants (s := handoverEnded r (s.serving r) s) hclaimants).symm
  · refine first ((tryHandover_claimed hfallen hrole hclaimants (mt hheld.1 h)).trans (if_pos ?_))
    simpa [← isPresent_iff] using hpeer
  · refine ⟨BitVec.ofNat 8 (rest.take 3).length, #v[stationByte (rest.take 3)[0]?, stationByte (rest.take 3)[1]?, stationByte (rest.take 3)[2]?],
      first ((tryHandover_claimed hfallen hrole hclaimants (mt hheld.1 h)).trans (if_neg ?_)), ?_, fun i => ?_⟩
    · simp [(isPresent_iff s p).2 hpeer]
    · simp
    · match i with
      | 0 => rfl
      | 1 => rfl
      | 2 => rfl

/-! ### RELEASE (R72) -/

/-- Settles O28: the rows of R72's table in order. -/
theorem releaseCapture : Obligations.ReleaseCapture := by
  intro s f r hwait hframe hjob idle ends
  have first {t : State} (h : s.tryRelease f r = t) : ends t := attempt_ends hwait ((attempt_first hjob hframe).trans h)
  refine ⟨fun hfallen => first (if_pos hfallen), fun hfallen => ?_⟩
  have hstands : ¬f.fallen = true := by simp [hfallen]
  have htry : s.tryRelease f r = if (s.entry r).role ≠ .owner then idle
      else if (s.claimants r).isEmpty = false then idle.serve r
      else if (s.pubEntry r).isSome then s.endFlight.hand (.release r)
      else (s.setEntry r { s.entry r with release := .captured }).startAttempt f (s.releaseFrame r) := if_neg hstands
  refine ⟨fun hrole => first (htry.trans (if_pos hrole)), fun hrole hclaimants => first (htry.trans ?_), fun hrole hclaimants hpub =>
    first (htry.trans ?_), fun hrole hclaimants hpub => first (htry.trans ?_)⟩
  · rw [if_neg (not_not.2 hrole), if_pos (by simpa using hclaimants), State.goOn_serve idle r hclaimants]
  · rw [if_neg (not_not.2 hrole), if_neg (by simp [hclaimants]), if_pos hpub, State.hand_handed]
    rfl
  · rw [if_neg (not_not.2 hrole), if_neg (by simp [hclaimants]), if_neg (by simp [hpub])]
    rfl

/-! ### Later attempts (R164) -/

theorem claimStillStands_iff (s : State) (r : Region) :
    s.claimStillStands r = true ↔ ∃ c, s.liveRecord r = some c ∧ (c.kind = .normal ∨ c.state = .asking) := by
  unfold State.claimStillStands
  cases s.liveRecord r <;> simp

/-- A HANDOVER whose target is lost gives its region back (R65). -/
theorem withdrawHandover_eq {s : State} {r : Region} (target : Station) (hrole : (s.entry r).role = .handing) :
    let u : State := { s with
      dir := put s.dir r { s.entry r with role := .owner }
      claims := { s.claims with
        serve := put s.claims.serve r { s.serving r with handover := .idle }
        table := s.claims.table.filter fun e => !(e.region == r && e.claimant == target) }
      line := unflown s.line }
    s.withdrawHandover r target = State.goOn r { u with pub := added r u } := by
  intro u
  rw [State.withdrawHandover, State.returnToOwner, if_pos (by exact hrole), State.addFull_added]
  rfl

/-- Settles O29: each kind of frame by its check. -/
theorem laterAttempts : Obligations.LaterAttempts := by
  intro s f x hwait hframe again withdrawn
  have later {q : QFrame} (hjob : f.job = .control q) {t : State} (h : s.laterAttempt f x q = t) :
      exec .deferralWaitExpiry s = .next t.leaveIfDone := attempt_ends hwait ((attempt_later hjob hframe).trans h)
  refine ⟨fun hjob => ⟨s.ownedList, ownedList_bit s, attempt_ends hwait (attempt_presence hjob)⟩,
    fun r hjob => ?update, fun h => ?plain, fun r hjob => ?claim, fun r hjob => ?take, fun r hjob => ?release, fun r hjob => ?handover⟩
  case update =>
    have hattempt : s.attempt f = if f.fallen = false ∧ (s.entry r).role = .owner then s.startAttempt f x else s.endFlight := by
      rw [State.attempt, hjob, hframe]
    refine ⟨fun hfallen hrole => attempt_ends hwait (hattempt.trans (if_pos ⟨hfallen, hrole⟩)),
      fun h => attempt_ends hwait (hattempt.trans (if_neg ?_))⟩
    rintro ⟨hfallen, hrole⟩
    simp [hfallen, hrole] at h
  case plain =>
    obtain hjob | hjob | ⟨r, p, q, hjob⟩ | ⟨r, p, why, b, hjob⟩ | ⟨r, l, hjob⟩ | ⟨r, hjob⟩ := h
    · exact later hjob rfl
    · exact later hjob rfl
    · exact later hjob rfl
    · exact later hjob rfl
    · exact later hjob rfl
    · exact later hjob rfl
  case claim =>
    refine ⟨fun c hfallen hc hstands => later hjob (if_pos ⟨hfallen, (claimStillStands_iff s r).2 ⟨c, hc, hstands⟩⟩),
      fun h => later hjob (if_neg ?_)⟩
    rintro ⟨hfallen, hstands⟩
    obtain ⟨c, hc, hcase⟩ := (claimStillStands_iff s r).1 hstands
    obtain h | h := h
    · simp [h] at hfallen
    · obtain ⟨hkind, hstate⟩ := h c hc
      simp [hkind, hstate] at hcase
  case take =>
    exact ⟨fun c hrole hc hkind hstate => later hjob (if_pos ((takeStands_iff s r).2 ⟨hrole, c, hc, hkind, hstate⟩)),
      fun h => later hjob (if_neg (by simp [takeStands_not h]))⟩
  case release =>
    have hlater : f.fallen = false → s.laterAttempt f x (.release r) = if (s.entry r).role = .owner then s.startAttempt f x
        else s.endFlight.releaseIdle r := fun hfallen => if_neg (by simp [hfallen])
    exact ⟨fun hfallen hrole => later hjob ((hlater hfallen).trans (if_pos hrole)),
      fun hfallen hrole => later hjob ((hlater hfallen).trans (if_neg hrole)), fun hfallen => later hjob (if_pos hfallen)⟩
  case handover =>
    refine ⟨fun target list hfallen hcaptured => ?_, fun hfallen => later hjob (if_pos hfallen)⟩
    have hlater : s.laterAttempt f x (.handover r) = if s.isPresent target then s.startAttempt f x else s.withdrawHandover r target := by
      change s.recheckHandover f x r = _
      rw [State.recheckHandover, if_neg (by simp [hfallen]), hcaptured]
    refine ⟨fun hpeer => later hjob (hlater.trans (if_pos ((isPresent_iff s target).2 hpeer))), fun hpeer hrole => ?_⟩
    exact later hjob (hlater.trans ((if_neg (mt (isPresent_iff s target).1 hpeer)).trans (withdrawHandover_eq target hrole)))

end Sys2Proof.Machine

/-! Carried frames (O30 to O34): the state in which the owner of a carried frame takes the outcome, and what each kind makes of
it. -/

namespace Sys2Proof.Machine

open Sys2Proof.Safety

/-! ### The outcome -/

/-- The station once its frame was carried (R162): what the owner of the frame then changes starts here. -/
def carriedState (s : State) : State := { s with line := carriedLine s }

theorem exec_attemptCarried {s : State} {f : Flight} (h : Sending s f) :
    exec .attemptCarried s = .next ((carriedState s).ownerCarried f).leaveIfDone := by
  change Host.Outcome.next s.carried = _
  rw [State.carried, h.flight]
  exact congrArg Host.Outcome.next (if_pos h.transmitting)

theorem carried_ends {s t : State} {f : Flight} (h : Sending s f) (ht : (carriedState s).ownerCarried f = t) :
    exec .attemptCarried s = .next t.leaveIfDone := by rw [exec_attemptCarried h, ht]

/-- Settles O30: these kinds change nothing at their carry, but for the sequence that an UPDATE of an owned region makes the last. -/
theorem framesCarried : Obligations.FramesCarried := by
  intro s f x hsending hframe u
  refine ⟨fun h => carried_ends hsending ?_, fun r hjob => ?_⟩
  · unfold State.ownerCarried
    obtain hjob | ⟨r, p, q, hjob⟩ | ⟨r, p, why, b, hjob⟩ | ⟨r, l, hjob⟩ | ⟨r, hjob⟩ := h <;> rw [hjob] <;> rfl
  · have hupdate : u.ownerCarried f = if f.fallen = false ∧ (s.entry r).role = .owner then
        { u with dir := put s.dir r { s.entry r with lastSeq := x.header.seq } } else u := by
      rw [State.ownerCarried, hjob, Flight.seq, hframe]
      rfl
    refine ⟨fun hfallen hrole => carried_ends hsending (hupdate.trans (if_pos ⟨hfallen, hrole⟩)),
      fun h => carried_ends hsending (hupdate.trans (if_neg ?_))⟩
    rintro ⟨hfallen, hrole⟩
    simp [hfallen, hrole] at h

/-! ### HANDOVER and RELEASE (R66, R73) -/

theorem carryHandover_eq {s : State} {f : Flight} {r : Region} {target : Station} {list : List Station} (hfallen : f.fallen = false)
    (hcaptured : (s.serving r).handover = .captured target list) (seq : Half) : s.carryHandover f r seq = { s with
      dir := put s.dir r { s.entry r with owner := some target, role := .peer, lastSeq := seq, held := false, tenure := .stopped }
      claims := { s.claims with
        table := s.claims.table.filter fun e => e.region != r
        serve := put s.claims.serve r { handover := .idle, forced := false, redirect := .running (s.ctl.config.param 2) } }
      line := refused r .notOwner (some target) ((s.claimants r).filter fun p => !list.contains p) s
      cmd := noticed [.regionLost r (some target) .handover] s.ctl.ticks s.cmd } := by
  rw [State.carryHandover, hfallen, hcaptured]
  dsimp only
  rw [State.refuseAll_refused, State.notify_eq]
  rfl

theorem carryRelease_owner {s : State} {f : Flight} {r : Region} (hfallen : f.fallen = false) (hrole : (s.entry r).role = .owner)
    (hflight : s.line.flight = none) (seq : Half) : s.carryRelease f r seq = { s with
      dir := put s.dir r { s.entry r with
        owner := none, role := .orphan, replica := .valid, lastSeq := seq, held := false, tenure := .stopped, staleAge := 0
        repair := false, release := .idle }
      pub := { s.pub with set := put s.pub.set r none }
      claims := { s.claims with
        table := s.claims.table.filter fun e => e.region != r, serve := put s.claims.serve r { s.serving r with forced := false } }
      line := refused r .notOwner none (s.claimants r) s
      cmd := noticed [.regionLost r none .release] s.ctl.ticks s.cmd } := by
  rw [State.carryRelease, if_pos ⟨hfallen, hrole⟩]
  dsimp only
  rw [State.refuseAll_refused, State.notify_eq]
  have hline : { s.line with flight := s.line.flight.map fun f => if f.job == .update r then { f with fallen := true } else f } = s.line := by
    rw [hflight]
    exact congrArg (fun x => { s.line with flight := x }) hflight.symm
  refine State.eq_of rfl rfl rfl rfl rfl rfl rfl rfl rfl ?_ rfl
  change refused r .notOwner none (s.claimants r) { s with line := { s.line with flight := s.line.flight.map _ } } = _
  rw [hline]

/-- Settles O31: the carried frame's region, its queue and its notice, by the frame's own law. -/
theorem ownershipGivenAway : Obligations.OwnershipGivenAway := by
  intro s f r x hsending hframe hfallen table
  have hseq : f.seq = x.header.seq := by rw [Flight.seq, hframe]
  refine ⟨fun target list hjob hcaptured => carried_ends hsending ?_, fun hjob hrole => carried_ends hsending ?_,
    fun hjob hrole => carried_ends hsending ?_⟩
  all_goals rw [State.ownerCarried, hjob]; dsimp only
  · rw [carryHandover_eq hfallen (by exact hcaptured), hseq]
    rfl
  · rw [carryRelease_owner hfallen (by exact hrole) rfl, hseq]
    rfl
  · exact if_neg fun h => hrole h.2

/-! ### TAKE (R82, R135) -/

/-- Settles O32: the tenure starts, the claim is granted, and the region goes on. -/
theorem takeCarried : Obligations.TakeCarried := by
  intro s f r x hsending hframe hjob himage hlanes gained
  have hseq : f.seq = x.header.seq := by rw [Flight.seq, hframe]
  have htake : (carriedState s).ownerCarried f =
      State.goOn r (State.grantByTake r f.staleAtTake ((carriedState s).startTenure r x.header.seq)) := by
    rw [State.ownerCarried, hjob, ← hseq]
    rfl
  have hfreed (n : Notice) : (((carriedState s).startTenure r x.header.seq).freeRecord r).notify n = gained n := by
    rw [State.freeRecord_eq, State.startTenure_eq, State.notify_eq]
    rfl
  have hlive : ((carriedState s).startTenure r x.header.seq).liveRecord r = s.liveRecord r := State.liveRecord_congr rfl rfl r
  refine ⟨fun hnone => carried_ends hsending ?_, fun c hc => ?_⟩
  · rw [htake, State.grantByTake, hlive, hnone]
    exact congrArg (State.goOn r) (hfreed _)
  · refine ⟨_, (State.applyParked_applied r (gained (.grantedTake r c.origin f.staleAtTake)) himage hlanes).1, carried_ends hsending ?_⟩
    rw [htake, State.grantByTake, hlive, hc]
    exact congrArg (fun t : State => (t.applyParked r).goOn r) (hfreed _)

/-! ### JOIN and LEAVE (R115, R120) -/

theorem startOrExpire_eq (n k : Nat) (hk : k ≠ 0) : Timer.startOrExpire (k * n) = if n = 0 then .stopped else .running (k * n) := by
  unfold Timer.startOrExpire
  by_cases hn : n = 0 <;> simp [hn, hk]

/-- A station that has gone down has no LEAVE frame to queue. -/
theorem wentDown_leaveIfDone {m : Mode} {why : Cause} {lost : LostDetail} {s t : State} (h : WentDown m why lost s t)
    (hm : m ≠ .leaving) : t.leaveIfDone = t := leaveIfDone_not (Or.inl (by rw [h.ctl]; exact hm))

/-- Settles O33: the entry to ACTIVE with the regions served in order, and the entry to OFFLINE. -/
theorem joinAndLeaveCarried : Obligations.JoinAndLeaveCarried := by
  intro s f hsending
  refine ⟨fun hjob hmode hq => ?_, fun hjob hmode => ?_⟩
  · intro u
    have hactive : (carriedState s).enterActive = u.forRegions State.serve := by
      rw [State.enterActive, State.transition_eq]
      simp only [ConfigBlock.refreshMs, startOrExpire_eq _ 100 (by decide)]
      rfl
    rw [exec_attemptCarried hsending]
    refine congrArg Host.Outcome.next ?_
    have hcarried : (carriedState s).ownerCarried f = (carriedState s).enterActive := by
      rw [State.ownerCarried, hjob]
      exact if_pos hmode
    rw [hcarried, hactive, forRegions_serve u hq, leaveIfDone_not (Or.inl (show Mode.active ≠ .leaving by decide))]
    rfl
  · have hcarried : (carriedState s).ownerCarried f = (carriedState s).goOffline := by
      rw [State.ownerCarried, hjob]
      exact if_pos hmode
    have hdown := State.goDown_down .offline .left .left (carriedState s)
    refine ⟨_, carried_ends hsending hcarried, ?_⟩
    rw [State.goOffline, wentDown_leaveIfDone hdown (by decide)]
    exact hdown

/-! ### CLAIM (R43, R44, R76) -/

/-- The record whose CLAIM was carried (R43, R44, R76). -/
def carriedClaim (config : ConfigBlock) (c : ClaimRecord) : ClaimRecord :=
  let d : ClaimRecord := { c with attempts := min 3 (c.attempts + 1) }
  match c.state, c.kind with
  | .asking, .normal => { d with state := .asked, answer := .running (config.param 2) }
  | .asking, .orphan => { d with state := .orphanWait, orphanWait := .running (config.param 4) }
  | _, _ => d

theorem carryClaim_live {s : State} {f : Flight} {r : Region} {c : ClaimRecord} (hfallen : f.fallen = false)
    (hc : s.liveRecord r = some c) : s.carryClaim f r = { s with claims := recorded r (carriedClaim s.ctl.config c) s } := by
  rw [State.carryClaim, if_neg (by simp [hfallen]), hc, carriedClaim]
  obtain ⟨origin, kind, state⟩ := c
  cases state <;> cases kind <;> rfl

theorem carryClaim_ended {s : State} {f : Flight} {r : Region} (h : f.fallen = true ∨ s.liveRecord r = none) :
    s.carryClaim f r = { s with line := withdrawnLine r s } := by
  rw [State.carryClaim, State.withdrawIfRoom_line]
  obtain h | h := h
  · exact if_pos h
  · rw [h]
    split <;> rfl

/-- Settles O34: the record that the carried CLAIM counts at, by its state and kind. -/
theorem claimCarried : Obligations.ClaimCarried := by
  intro s f r hsending hjob u
  have hcarried : u.ownerCarried f = u.carryClaim f r := by rw [State.ownerCarried, hjob]
  have hlive : u.liveRecord r = s.liveRecord r := State.liveRecord_congr rfl rfl r
  refine ⟨fun h => carried_ends hsending (hcarried.trans (carryClaim_ended (by rwa [hlive]))), fun c hfallen hc => ?_⟩
  intro n
  have hclaim := hcarried.trans (carryClaim_live hfallen (hlive.trans hc))
  refine ⟨fun hstate hkind => carried_ends hsending (hclaim.trans ?_), fun hstate hkind => carried_ends hsending (hclaim.trans ?_),
    fun hstate => carried_ends hsending (hclaim.trans ?_)⟩
  · rw [carriedClaim, hstate, hkind]
    rfl
  · rw [carriedClaim, hstate, hkind]
    rfl
  · have hcount : carriedClaim u.ctl.config c = { c with attempts := n } := by
      unfold carriedClaim
      split
      · next h _ => exact absurd h hstate
      · next h _ => exact absurd h hstate
      · rfl
    rw [hcount]
    rfl

end Sys2Proof.Machine

/-! Collisions and drops (O35, O36). -/

namespace Sys2Proof.Machine

open Sys2Proof.Safety

/-! ### What the acts of a drop leave of the Line Unit -/

@[simp] theorem handLine_consecutive (m : Mark) (l : LineUnit) : (handLine m l).consecutive = l.consecutive := by
  unfold handLine
  split_ifs <;> rfl

@[simp] theorem handed_consecutive (m : Mark) (s : State) : (handed m s).consecutive = s.line.consecutive := by
  unfold handed
  split_ifs <;> simp

@[simp] theorem wanted_consecutive (r : Region) (s : State) : (wanted r s).consecutive = s.line.consecutive := by
  unfold wanted claimLine
  split_ifs <;> simp

theorem serve_consecutive (s : State) (r : Region) : (s.serve r).line.consecutive = s.line.consecutive := by
  unfold State.serve
  split_ifs
  · rw [State.hand_handed]; exact handed_consecutive _ _
  · rfl

theorem requestRelease_consecutive (s : State) (r : Region) : (s.requestRelease r).line.consecutive = s.line.consecutive := by
  unfold State.requestRelease
  split_ifs
  · rw [State.hand_handed]; exact handed_consecutive _ _
  · rfl

theorem goOn_consecutive (s : State) (r : Region) : (s.goOn r).line.consecutive = s.line.consecutive := by
  unfold State.goOn State.releaseIfLeaving
  split_ifs
  · rw [requestRelease_consecutive, serve_consecutive]
  · exact serve_consecutive s r

/-- The failure of a claim counts as no drop. -/
theorem failed_consecutive {r : Region} {why : FailReason} {c : ClaimRecord} {s t : State} (h : Failed r why c s t) :
    t.line.consecutive = s.line.consecutive := by
  have hline : t.line = endedLine r s.line ∨ t.line = handLine (.withdraw r (why == .leave)) (endedLine r s.line) := by
    by_cases hw : Withdraws why c
    · by_cases hroom : s.line.queue.length < 16
      · exact .inr (h.withdrawn hw hroom).2
      · exact .inr (h.closing hw (Nat.not_lt.1 hroom)).2.2
    · exact .inl (h.freed hw).2
  obtain hline | hline := hline
  · rw [hline]; rfl
  · rw [hline, handLine_consecutive]; rfl

/-! ### The collision -/

/-- The frame goes on for its next attempt (R160, R161). -/
theorem collided_again {s : State} {f : Flight} (h : Sending s f) (hattempt : f.attempt < 16) :
    s.collided = { s with line := { s.line with
      collisions := min 65535 (s.line.collisions + 1), burst := .bad
      flight := some { f with
        attempt := f.attempt + 1, transmitting := false
        wait := if s.line.carrier = true then f.wait
          else some (waitLength s.ctl.ownId s.line.rotation (f.attempt + 1) (isUpdate f.job)) } } } := by
  rw [State.collided, h.flight]
  dsimp only
  rw [if_pos h.transmitting, if_pos (by exact hattempt), State.startWaitIfIdle, satSucc_eq, startWait_eq]
  dsimp only
  split_ifs <;> rfl

theorem droppedState_consecutive (f : Flight) (s : State) : (droppedState f s).line.consecutive = min 4 (s.line.consecutive + 1) := rfl

/-- The frame is dropped after its sixteenth attempt: its owner takes the drop at the state after steps 1 to 3 of R162. -/
theorem exec_dropped {s : State} {f : Flight} (h : Sending s f) (hattempt : 16 ≤ f.attempt) :
    exec .attemptCollision s = .next (((droppedState f s).ownerDropped f).isolateIfLimit f).leaveIfDone := by
  change Host.Outcome.next s.collided = _
  rw [State.collided, h.flight]
  dsimp only
  rw [if_pos h.transmitting, if_neg (by exact Nat.not_lt.2 hattempt), State.dropFlight, State.notify_eq, satSucc_eq, satSucc_eq]
  rfl

/-- A drop that isolates nobody. -/
theorem isolateIfLimit_below {f : Flight} {t : State} (hjob : f.job ≠ .control .join) (hcount : t.line.consecutive < 4) :
    t.isolateIfLimit f = t := by
  refine if_neg ?_
  rintro (⟨hj, -⟩ | ⟨hlimit, -⟩)
  · exact hjob hj
  · exact absurd hlimit (Nat.not_le.2 hcount)

/-- Before the fourth drop, the owner of the frame takes the drop and no more. -/
theorem dropped_ends {s t : State} {f : Flight} (h : Sending s f) (hattempt : 16 ≤ f.attempt) (hcount : s.line.consecutive < 3)
    (hjob : f.job ≠ .control .join) (ht : (droppedState f s).ownerDropped f = t)
    (hline : t.line.consecutive = (droppedState f s).line.consecutive) : exec .attemptCollision s = .next t.leaveIfDone := by
  rw [exec_dropped h hattempt, ht, isolateIfLimit_below hjob]
  rw [hline, droppedState_consecutive]
  omega

/-! ### A dropped CLAIM (R44, R76) -/

/-- A live record changed, with the marks as they were, is live as it is now. -/
theorem liveRecord_recorded {s t : State} {r : Region} {c d : ClaimRecord} (hc : s.liveRecord r = some c)
    (hclaims : t.claims = recorded r d s) (hmarks : t.line.marks = s.line.marks) : t.liveRecord r = some d := by
  have hrecord : t.record r = some d := by rw [State.record, hclaims]; exact pick_put_same _ _ _
  have hopen : s.line.marks.any (Mark.isWithdraw r) = false := by
    have hsome := State.record_of_live hc
    simpa [State.liveRecord, State.closing, hsome] using hc
  simp [State.liveRecord, State.closing, hrecord, hmarks, hopen]

/-- The record after its CLAIM was dropped. -/
def countedClaim (c : ClaimRecord) : ClaimRecord := { c with attempts := min 3 (c.attempts + 1) }

theorem dropClaim_ended {s : State} {f : Flight} {r : Region} (h : f.fallen = true ∨ s.liveRecord r = none) : s.dropClaim f r = s := by
  unfold State.dropClaim
  obtain h | h := h
  · exact if_pos h
  · rw [h]
    split <;> rfl

section DroppedClaim

variable {s : State} {f : Flight} {r : Region} {c : ClaimRecord}

theorem dropClaim_live (hfallen : f.fallen = false) (hc : s.liveRecord r = some c) : s.dropClaim f r =
    let e : State := { s with claims := recorded r (countedClaim c) s }
    if c.state = .asking then
      if (countedClaim c).attempts < 3 then e.needClaim r
      else match c.kind with
        | .normal => e.exhaust r
        | .orphan => e.failRecord r .noAnswer
    else e := by
  rw [State.dropClaim, if_neg (by simp [hfallen]), hc]
  rfl

theorem dropClaim_unasked (hfallen : f.fallen = false) (hc : s.liveRecord r = some c) (hstate : c.state ≠ .asking) :
    s.dropClaim f r = { s with claims := recorded r (countedClaim c) s } := by
  rw [dropClaim_live hfallen hc]
  exact if_neg hstate

theorem dropClaim_again (hfallen : f.fallen = false) (hc : s.liveRecord r = some c) (hstate : c.state = .asking)
    (hcount : (countedClaim c).attempts < 3) :
    s.dropClaim f r = { s with claims := recorded r (countedClaim c) s, line := wanted r s } := by
  rw [dropClaim_live hfallen hc]
  dsimp only
  rw [if_pos hstate, if_pos hcount, State.needClaim_wanted]
  rfl

/-- The third drop of a NORMAL record's CLAIM where the owner is not PRESENT. -/
theorem dropClaim_orphaned (hfallen : f.fallen = false) (hc : s.liveRecord r = some c) (hstate : c.state = .asking)
    (hcount : ¬(countedClaim c).attempts < 3) (hkind : c.kind = .normal)
    (howner : ∀ p, (s.entry r).owner = some p → (s.peer p).state ≠ .present) :
    s.dropClaim f r = { s with claims := recorded r (orphanClaim c) s, line := wanted r s } := by
  rw [dropClaim_live hfallen hc]
  dsimp only
  rw [if_pos hstate, if_neg hcount, hkind]
  dsimp only
  have hlive : State.liveRecord { s with claims := recorded r (countedClaim c) s } r = some (countedClaim c) :=
    liveRecord_recorded hc rfl rfl
  have hexhaust : State.exhaust r { s with claims := recorded r (countedClaim c) s } =
      State.toOrphanClaim r { s with claims := recorded r (countedClaim c) s } := by
    rw [State.exhaust]
    split
    · next p hp => exact if_neg fun h => howner p hp ((isPresent_iff _ p).1 h)
    · rfl
  rw [hexhaust, State.toOrphanClaim_eq, orphanedClaim, hlive]
  dsimp only
  rw [if_pos (by exact hkind), recorded]
  simp only [recorded, put_put]
  rfl

/-- The third drop of a CLAIM where the record fails with NO_ANSWER. -/
theorem dropClaim_fails (hfallen : f.fallen = false) (hc : s.liveRecord r = some c) (hstate : c.state = .asking)
    (hcount : ¬(countedClaim c).attempts < 3)
    (h : c.kind = .orphan ∨ ∃ p, (s.entry r).owner = some p ∧ (s.peer p).state = .present) :
    Failed r .noAnswer (countedClaim c) { s with claims := recorded r (countedClaim c) s } (s.dropClaim f r) := by
  have hlive : State.liveRecord { s with claims := recorded r (countedClaim c) s } r = some (countedClaim c) :=
    liveRecord_recorded hc rfl rfl
  have hdrop : s.dropClaim f r = State.failRecord r .noAnswer { s with claims := recorded r (countedClaim c) s } := by
    rw [dropClaim_live hfallen hc]
    dsimp only
    rw [if_pos hstate, if_neg hcount]
    cases hkind : c.kind with
    | orphan => rfl
    | normal =>
      obtain ⟨p, hp, hpresent⟩ := h.resolve_left (by simp [hkind])
      dsimp only
      rw [State.exhaust]
      have hp' : (State.entry { s with claims := recorded r (countedClaim c) s } r).owner = some p := hp
      rw [hp']
      exact if_pos ((isPresent_iff s p).2 hpresent)
  rw [hdrop]
  exact State.failRecord_freed r .noAnswer _ _ hlive fun ⟨hw, _⟩ => by simp [countedClaim, hstate] at hw

end DroppedClaim

theorem droppedState_live (f : Flight) (s : State) (r : Region) : (droppedState f s).liveRecord r = s.liveRecord r :=
  State.liveRecord_congr rfl rfl r

/-- Settles O35: the dropped CLAIM by its record's state and count. -/
theorem claimDropped : Obligations.ClaimDropped := by
  intro s f r hsending hjob hattempt hcount d
  have hjoin : f.job ≠ .control .join := by simp [hjob]
  have hdropped : d.ownerDropped f = d.dropClaim f r := by rw [State.ownerDropped, hjob]
  have hlive : d.liveRecord r = s.liveRecord r := droppedState_live f s r
  have ends {t : State} (ht : d.dropClaim f r = t) (hline : t.line.consecutive = d.line.consecutive) :=
    dropped_ends hsending hattempt hcount hjoin (hdropped.trans ht) hline
  refine ⟨fun h => ends (dropClaim_ended (by rwa [hlive])) rfl, fun c hfallen hc => ?_⟩
  intro n e
  have hc' : d.liveRecord r = some c := hlive.trans hc
  refine ⟨fun hstate => ends (dropClaim_unasked hfallen hc' hstate) rfl,
    fun hstate hn => ends (dropClaim_again hfallen hc' hstate hn) (wanted_consecutive r d),
    fun hstate hn => ⟨fun hkind howner => ends (dropClaim_orphaned hfallen hc' hstate (by simp [countedClaim, n] at hn ⊢; omega) hkind howner)
      (wanted_consecutive r d), fun h => ?_⟩⟩
  have hfailed := dropClaim_fails hfallen hc' hstate (by simp [countedClaim, n] at hn ⊢; omega) h
  have hline := failed_consecutive hfailed
  exact ⟨_, hfailed, ends rfl hline⟩

/-! ### The other kinds (R30, R67, R73, R83, R120) -/

/-- A dropped HANDOVER gives its region back (R67). -/
theorem dropHandover_captured {s : State} {f : Flight} {r : Region} {target : Station} {list : List Station} (hfallen : f.fallen = false)
    (hcaptured : (s.serving r).handover = .captured target list) (hrole : (s.entry r).role = .handing) :
    let e : State := { s with
      dir := put s.dir r { s.entry r with role := .owner }
      claims := { s.claims with serve := put s.claims.serve r { s.serving r with handover := .idle } } }
    s.dropHandover f r = State.goOn r { e with pub := added r e } := by
  intro e
  rw [State.dropHandover, hfallen, hcaptured]
  dsimp only
  rw [State.returnToOwner, if_pos hrole, State.addFull_added]
  rfl

theorem dropTake_taking {s : State} {r : Region} {c : ClaimRecord} (hc : s.liveRecord r = some c) (hstate : c.state = .taking) :
    s.dropTake r = { s with claims := recorded r { c with state := .orphanWait, orphanWait := .running (s.ctl.config.param 4) } s } := by
  rw [State.dropTake, hc]
  exact if_pos hstate

theorem dropTake_other {s : State} {r : Region} (h : ∀ c, s.liveRecord r = some c → c.state ≠ .taking) : s.dropTake r = s := by
  unfold State.dropTake
  split
  · next c hc => exact if_neg (h c hc)
  · rfl

theorem releaseIdle_entry (s : State) (r : Region) : (s.releaseIdle r).entry r = { s.entry r with release := .idle } := pick_put_same _ _ _

section DroppedRelease

variable {s : State} {f : Flight} {r : Region}

theorem dropRelease_standing (hfallen : f.fallen = false) : s.dropRelease f r =
    if (s.claimants r).isEmpty then (s.releaseIdle r).requestRelease r else (s.releaseIdle r).serve r :=
  if_neg (by simp [hfallen])

theorem dropRelease_served (hfallen : f.fallen = false) (hclaimants : s.claimants r ≠ []) :
    s.dropRelease f r = State.goOn r { s with dir := put s.dir r { s.entry r with release := .idle } } := by
  rw [dropRelease_standing hfallen, if_neg (by simpa using hclaimants)]
  exact (State.goOn_serve (s.releaseIdle r) r hclaimants).symm

theorem dropRelease_again (hfallen : f.fallen = false) (hclaimants : s.claimants r = []) (hrole : (s.entry r).role = .owner)
    (hhandover : (s.serving r).handover = .idle) (hq : s.ctl.leaveQueued = false) : s.dropRelease f r = { s with
      dir := put s.dir r { s.entry r with release := .queued }, line := handLine (.release r) s.line } := by
  have hentry := releaseIdle_entry s r
  rw [dropRelease_standing hfallen, if_pos (by simpa using hclaimants), requestRelease_taken (s := s.releaseIdle r)
    (by rw [hentry]; exact hrole) (by rw [hentry]) hhandover hq, releasing, hentry]
  simp only [State.releaseIdle, State.setEntry, put_put]

theorem dropRelease_refused (hfallen : f.fallen = false) (hclaimants : s.claimants r = [])
    (h : (s.entry r).role ≠ .owner ∨ (s.serving r).handover ≠ .idle ∨ s.ctl.leaveQueued = true) :
    s.dropRelease f r = { s with dir := put s.dir r { s.entry r with release := .idle } } := by
  rw [dropRelease_standing hfallen, if_pos (by simpa using hclaimants), requestRelease_refused]
  · rfl
  · rw [releaseIdle_entry]
    exact h.imp_right Or.inr

end DroppedRelease

/-- Settles O36: the next attempt, and the drop by kind. -/
theorem collisionAndDrop : Obligations.CollisionAndDrop := by
  intro s f hsending
  refine ⟨fun hattempt => congrArg Host.Outcome.next (collided_again hsending hattempt), fun hattempt hcount => ?_⟩
  intro d
  have ends {t : State} (hjoin : f.job ≠ .control .join) (ht : d.ownerDropped f = t) (hline : t.line.consecutive = d.line.consecutive) :
      exec .attemptCollision s = .next t.leaveIfDone := dropped_ends hsending hattempt hcount hjoin ht hline
  refine ⟨fun h => ?plain, fun r hjob => ?update, fun r target list hjob hfallen hcaptured hrole => ?handover, fun r hjob => ?take,
    fun r hjob hfallen => ?release, fun r hjob hfallen => ?fallen, fun hjob hmode => ?leave⟩
  case plain =>
    obtain hjob | ⟨r, p, q, hjob⟩ | ⟨r, p, why, b, hjob⟩ | ⟨r, l, hjob⟩ | ⟨r, hjob⟩ := h
    all_goals exact ends (by simp [hjob]) (by rw [State.ownerDropped, hjob]) rfl
  case update =>
    exact ends (by simp [hjob]) (by rw [State.ownerDropped, hjob]; exact State.addFull_added r d) rfl
  case handover =>
    intro e
    refine ends (by simp [hjob]) ?_ (goOn_consecutive _ r)
    rw [State.ownerDropped, hjob]
    exact dropHandover_captured (s := d) hfallen hcaptured hrole
  case take =>
    have hlive : d.liveRecord r = s.liveRecord r := droppedState_live f s r
    have hdropped : d.ownerDropped f = d.dropTake r := by rw [State.ownerDropped, hjob]
    exact ⟨fun c hc hstate => ends (by simp [hjob]) (hdropped.trans (dropTake_taking (hlive.trans hc) hstate)) rfl,
      fun h => ends (by simp [hjob]) (hdropped.trans (dropTake_other (by rwa [hlive]))) rfl⟩
  case release =>
    have hdropped : d.ownerDropped f = d.dropRelease f r := by rw [State.ownerDropped, hjob]
    exact ⟨fun hclaimants => ends (by simp [hjob]) (hdropped.trans (dropRelease_served hfallen hclaimants)) (goOn_consecutive _ r),
      fun hclaimants hrole hhandover hq => ends (by simp [hjob])
        (hdropped.trans (dropRelease_again (s := d) hfallen hclaimants hrole hhandover hq)) (handLine_consecutive _ _),
      fun hclaimants h => ends (by simp [hjob]) (hdropped.trans (dropRelease_refused (s := d) hfallen hclaimants h)) rfl⟩
  case fallen =>
    obtain hjob | hjob := hjob
    · exact ends (by simp [hjob]) (by rw [State.ownerDropped, hjob]; exact if_pos hfallen) rfl
    · exact ends (by simp [hjob]) (by rw [State.ownerDropped, hjob]; simp [State.dropHandover, hfallen]) rfl
  case leave =>
    have hdown := State.goDown_down .offline .left .left d
    have hdropped : d.ownerDropped f = d.goOffline := by
      rw [State.ownerDropped, hjob]
      refine if_pos ⟨hmode, ?_⟩
      change min 4 (s.line.consecutive + 1) < 4
      omega
    refine ⟨_, ends (by simp [hjob]) hdropped ?_, ?_⟩
    · exact (congrArg LineUnit.consecutive hdown.line :)
    · rw [State.goOffline, wentDown_leaveIfDone hdown (by decide)]
      exact hdown

end Sys2Proof.Machine

/-! The drop that isolates the station (O37). What the entry to ISOLATED leaves depends on little of the state (`Alike`), and what the
owner of a dropped frame does first changes none of that, unless a claim fails. -/

namespace Sys2Proof.Machine

open Sys2Proof.Safety

/-- The entry as it would be left on going down. -/
def DirEntry.down (e : DirEntry) : DirEntry :=
  if e.role.owns then { e with owner := none, role := .orphan, held := false, tenure := .stopped, release := .idle }
  else { e with release := .idle }

/-- Two states that an entry to ISOLATED or OFFLINE leaves alike. -/
structure Alike (s e : State) : Prop where
  ctl : e.ctl = s.ctl
  cmd : e.cmd = s.cmd
  owns : ∀ r, (e.entry r).role.owns = (s.entry r).role.owns
  entry : ∀ r, (e.entry r).down = (s.entry r).down
  pub : e.pub.pointer = s.pub.pointer ∧ e.pub.barred = s.pub.barred
  live : ∀ r, (e.liveRecord r).map ClaimRecord.origin = (s.liveRecord r).map ClaimRecord.origin
  roster : e.roster = s.roster
  parked : e.parked = s.parked
  outer : e.image = s.image ∧ e.port = s.port ∧ e.pending = s.pending
  line : ({ e.line with queue := [], marks := [], flight := none, controlRun := 0 } : LineUnit) =
    { s.line with queue := [], marks := [], flight := none, controlRun := 0 }

theorem Alike.refl (s : State) : Alike s s :=
  ⟨rfl, rfl, fun _ => rfl, fun _ => rfl, ⟨rfl, rfl⟩, fun _ => rfl, rfl, rfl, ⟨rfl, rfl, rfl⟩, rfl⟩

theorem Alike.trans {s t u : State} (h : Alike s t) (g : Alike t u) : Alike s u :=
  ⟨g.ctl.trans h.ctl, g.cmd.trans h.cmd, fun r => (g.owns r).trans (h.owns r), fun r => (g.entry r).trans (h.entry r),
    ⟨g.pub.1.trans h.pub.1, g.pub.2.trans h.pub.2⟩, fun r => (g.live r).trans (h.live r), g.roster.trans h.roster,
    g.parked.trans h.parked, ⟨g.outer.1.trans h.outer.1, g.outer.2.1.trans h.outer.2.1, g.outer.2.2.trans h.outer.2.2⟩,
    g.line.trans h.line⟩

/-! ### The entry to ISOLATED or OFFLINE from alike states -/

/-- The notices of a failing claim by its origin, the region's owner and its parked writes. -/
theorem failNotices_congr {r : Region} {why : FailReason} {s e : State}
    (hlive : (e.liveRecord r).map ClaimRecord.origin = (s.liveRecord r).map ClaimRecord.origin)
    (howner : (e.entry r).owner = (s.entry r).owner) (hparked : e.parkedFor r = s.parkedFor r) :
    failNotices r why e = failNotices r why s := by
  unfold failNotices
  rw [howner, hparked]
  cases he : e.liveRecord r <;> cases hs : s.liveRecord r <;> simp_all

/-- The directory once the owned regions are given up. -/
def State.givenUp (s : State) : State := { s with dir := s.dir.map fun e => if e.role.owns then { e with owner := none } else e }

theorem givenUp_owner (s : State) (r : Region) : (s.givenUp.entry r).owner = (s.entry r).down.owner := by
  simp only [State.givenUp, State.entry, pick_map, DirEntry.down]
  by_cases h : (pick s.dir r).role.owns = true <;> simp [h]

theorem Alike.notices {s e : State} (h : Alike s e) (m : Mode) (why : Cause) (lost : LostDetail) :
    downNotices m why lost e = downNotices m why lost s := by
  have hgiven (r : Region) : failNotices r .isolated e.givenUp = failNotices r .isolated s.givenUp := by
    refine failNotices_congr (h.live r) ?_ (congrArg (List.filter _) h.parked)
    rw [givenUp_owner, givenUp_owner, h.entry]
  change _ :: _ ++ allRegions.flatMap (fun r => failNotices r .isolated e.givenUp) =
    _ :: _ ++ allRegions.flatMap fun r => failNotices r .isolated s.givenUp
  simp only [hgiven, h.owns]

theorem Alike.wentDown {m : Mode} {why : Cause} {lost : LostDetail} {s e t : State} (h : Alike s e) (g : WentDown m why lost e t) :
    WentDown m why lost s t where
  ctl := by rw [g.ctl, h.ctl]
  cmd := by rw [g.cmd, h.notices, h.ctl, h.cmd]
  owned r hr := by
    have he := h.entry r
    rw [DirEntry.down, DirEntry.down, h.owns r, if_pos hr, if_pos hr] at he
    rw [g.owned r (by rw [h.owns r, hr]), he]
  others r hr := by
    have he := h.entry r
    rw [DirEntry.down, DirEntry.down, h.owns r, if_neg (by simp [hr]), if_neg (by simp [hr])] at he
    rw [g.others r (by rw [h.owns r, hr]), he]
  pub := by
    obtain ⟨hset, hpointer, hrefresh, hscan, hbarred⟩ := g.pub
    exact ⟨hset, hpointer.trans h.pub.1, hrefresh, hscan, hbarred.trans h.pub.2⟩
  claims := g.claims
  roster p := by rw [g.roster, State.peer, State.peer, h.roster]
  parked := by
    have hlive (r : Region) : (e.liveRecord r).isNone = (s.liveRecord r).isNone := by
      have := congrArg Option.isNone (h.live r)
      simpa using this
    rw [g.parked, h.parked]
    simp only [hlive]
  line := by rw [g.line]; exact h.line
  frame := ⟨g.frame.1.trans h.outer.1, g.frame.2.1.trans h.outer.2.1, g.frame.2.2.trans h.outer.2.2⟩

/-! ### Acts that leave a state alike -/

/-- A record is live by itself and by the WITHDRAW marks of its region (R54). -/
theorem liveRecord_of {s t : State} {r : Region} (hrecord : t.record r = s.record r)
    (hmarks : t.line.marks.any (Mark.isWithdraw r) = s.line.marks.any (Mark.isWithdraw r)) : t.liveRecord r = s.liveRecord r := by
  unfold State.liveRecord State.closing
  rw [hrecord, hmarks]

/-- A frame handed over, but for a WITHDRAW. -/
theorem State.hand_alike (s : State) {m : Mark} (hm : ∀ r, Mark.isWithdraw r m = false) : Alike s (s.hand m) := by
  rw [State.hand_handed]
  have hline : ∀ l : LineUnit, ({ handLine m l with queue := [], marks := [], flight := none, controlRun := 0 } : LineUnit) =
      { l with queue := [], marks := [], flight := none, controlRun := 0 } := fun l => by unfold handLine; split_ifs <;> rfl
  have hmarks : ∀ (l : LineUnit) r, (handLine m l).marks.any (Mark.isWithdraw r) = l.marks.any (Mark.isWithdraw r) := fun l r => by
    unfold handLine
    split_ifs <;> simp [hm]
  refine ⟨rfl, rfl, fun _ => rfl, fun _ => rfl, ⟨rfl, rfl⟩, fun r => ?_, rfl, rfl, ⟨rfl, rfl, rfl⟩, ?_⟩
  · refine congrArg (Option.map ClaimRecord.origin) (liveRecord_of rfl ?_)
    unfold handed
    dsimp only
    split_ifs
    · rfl
    · exact hmarks _ r
  · unfold handed
    split_ifs
    · rfl
    · exact hline _

theorem State.addFull_alike (s : State) (r : Region) : Alike s (s.addFull r) := by
  rw [State.addFull_added]
  have hpub : (added r s).pointer = s.pub.pointer ∧ (added r s).barred = s.pub.barred := by
    unfold added fullyAdded
    split_ifs <;> exact ⟨rfl, rfl⟩
  exact ⟨rfl, rfl, fun _ => rfl, fun _ => rfl, hpub, fun _ => rfl, rfl, rfl, ⟨rfl, rfl, rfl⟩, rfl⟩

theorem State.setServing_alike (s : State) (r : Region) (e : ServeEntry) : Alike s (s.setServing r e) :=
  ⟨rfl, rfl, fun _ => rfl, fun _ => rfl, ⟨rfl, rfl⟩, fun _ => rfl, rfl, rfl, ⟨rfl, rfl, rfl⟩, rfl⟩

/-- An entry replaced by one that is left alike. -/
theorem State.setEntry_alike (s : State) (r : Region) {e : DirEntry} (howns : e.role.owns = (s.entry r).role.owns)
    (hdown : e.down = (s.entry r).down) : Alike s (s.setEntry r e) := by
  refine ⟨rfl, rfl, fun q => ?_, fun q => ?_, ⟨rfl, rfl⟩, fun _ => rfl, rfl, rfl, ⟨rfl, rfl, rfl⟩, rfl⟩
  all_goals
    rw [State.setEntry_entry]
    split_ifs with hq
    · rw [hq]; assumption
    · rfl

theorem State.release_alike (s : State) (r : Region) (x : ReleaseState) : Alike s (s.setEntry r { s.entry r with release := x }) :=
  s.setEntry_alike r rfl (by unfold DirEntry.down; split_ifs <;> rfl)

/-- The live record changed, but for its origin. -/
theorem State.setRecord_alike {s : State} {r : Region} {c d : ClaimRecord} (hc : s.liveRecord r = some c) (h : d.origin = c.origin) :
    Alike s (s.setRecord r (some d)) := by
  refine ⟨rfl, rfl, fun _ => rfl, fun _ => rfl, ⟨rfl, rfl⟩, fun q => ?_, rfl, rfl, ⟨rfl, rfl, rfl⟩, rfl⟩
  by_cases hq : q = r
  · subst hq
    have hlive : (s.setRecord q (some d)).liveRecord q = some d := liveRecord_recorded hc rfl rfl
    rw [hlive, hc, Option.map_some, Option.map_some, h]
  · have hrecord : (s.setRecord r (some d)).record q = s.record q := by rw [State.setRecord_record, if_neg hq]
    rw [liveRecord_of hrecord rfl]

theorem State.needClaim_alike (s : State) (r : Region) : Alike s (s.needClaim r) := by
  unfold State.needClaim
  split_ifs
  · exact .refl s
  · exact s.hand_alike fun _ => rfl

theorem State.serve_alike (s : State) (r : Region) : Alike s (s.serve r) := by
  unfold State.serve
  split_ifs
  · exact (s.setServing_alike r _).trans (State.hand_alike _ fun _ => rfl)
  · exact .refl s

theorem State.requestRelease_alike (s : State) (r : Region) : Alike s (s.requestRelease r) := by
  unfold State.requestRelease
  split_ifs
  · exact (s.release_alike r _).trans (State.hand_alike _ fun _ => rfl)
  · exact .refl s

theorem State.goOn_alike (s : State) (r : Region) : Alike s (s.goOn r) := by
  unfold State.goOn State.releaseIfLeaving
  split_ifs
  · exact (s.serve_alike r).trans (State.requestRelease_alike _ r)
  · exact s.serve_alike r

theorem State.returnToOwner_alike (s : State) (r : Region) : Alike s (s.returnToOwner r) := by
  unfold State.returnToOwner
  split_ifs with h
  · refine (s.setEntry_alike r (by rw [h]; rfl) ?_).trans (State.addFull_alike _ r)
    simp [DirEntry.down, h, Role.owns]
  · exact .refl s

theorem State.dropHandover_alike (s : State) (f : Flight) (r : Region) : Alike s (s.dropHandover f r) := by
  unfold State.dropHandover
  split
  · exact (s.returnToOwner_alike r).trans ((State.setServing_alike _ r _).trans (State.goOn_alike _ r))
  · exact .refl s

theorem State.dropTake_alike (s : State) (r : Region) : Alike s (s.dropTake r) := by
  unfold State.dropTake
  split
  · next c hc =>
    split_ifs
    · exact State.setRecord_alike hc rfl
    · exact .refl s
  · exact .refl s

theorem State.dropRelease_alike (s : State) (f : Flight) (r : Region) : Alike s (s.dropRelease f r) := by
  unfold State.dropRelease
  dsimp only
  split_ifs
  · exact .refl s
  · exact (s.release_alike r _).trans (State.requestRelease_alike _ r)
  · exact (s.release_alike r _).trans (State.serve_alike _ r)

/-- A dropped CLAIM whose record does not fail. -/
theorem dropClaim_alike {s : State} {f : Flight} {r : Region} (h : ∀ c, f.fallen = false → s.liveRecord r = some c →
    c.state ≠ .asking ∨ c.attempts < 2 ∨ (c.kind = .normal ∧ ∀ p, (s.entry r).owner = some p → (s.peer p).state ≠ .present)) :
    Alike s (s.dropClaim f r) := by
  by_cases hended : f.fallen = true ∨ s.liveRecord r = none
  · rw [dropClaim_ended hended]
    exact .refl s
  · obtain ⟨hfallen, hlive⟩ := not_or.1 hended
    rw [Bool.not_eq_true] at hfallen
    obtain ⟨c, hc⟩ := Option.ne_none_iff_exists'.1 hlive
    by_cases hstate : c.state = .asking
    · by_cases hcount : (countedClaim c).attempts < 3
      · rw [dropClaim_live hfallen hc]
        dsimp only
        rw [if_pos hstate, if_pos hcount]
        exact (State.setRecord_alike (d := countedClaim c) hc rfl).trans (State.needClaim_alike _ r)
      · have hattempts : ¬c.attempts < 2 := fun h2 => hcount (by simp only [countedClaim]; omega)
        obtain hs | hlt | ⟨hkind, howner⟩ := h c hfallen hc
        · exact absurd hstate hs
        · exact absurd hlt hattempts
        · rw [dropClaim_orphaned hfallen hc hstate hcount hkind howner]
          have := (State.setRecord_alike (d := orphanClaim c) hc rfl).trans (State.needClaim_alike _ r)
          rw [State.needClaim_wanted] at this
          exact this
    · rw [dropClaim_unasked hfallen hc hstate]
      exact State.setRecord_alike hc rfl

/-! ### The isolation -/

/-- A drop at which the station is isolated. -/
theorem isolateIfLimit_limit {f : Flight} {t : State}
    (h : (f.job = .control .join ∧ t.ctl.mode = .joining) ∨ (4 ≤ t.line.consecutive ∧ t.ctl.mode.transmits = true)) :
    ∃ u, (t.isolateIfLimit f).leaveIfDone = u ∧ WentDown .isolated .line .isolated t u := by
  have hdown := State.goDown_down .isolated .line .isolated t
  refine ⟨_, ?_, hdown⟩
  rw [State.isolateIfLimit, if_pos (by exact h)]
  exact wentDown_leaveIfDone hdown (by decide)

/-- Settles O37: the owner's act before the isolation is undone by it, unless it is the failure of a claim. -/
theorem fourthDropIsolates : Obligations.FourthDropIsolates := by
  intro s f hsending hattempt hlimit d
  have hlimit' {t : State} (hctl : t.ctl = d.ctl) (hline : t.line.consecutive = d.line.consecutive) :
      (f.job = .control .join ∧ t.ctl.mode = .joining) ∨ (4 ≤ t.line.consecutive ∧ t.ctl.mode.transmits = true) := by
    rw [hctl, hline]
    refine hlimit.imp_right fun ⟨hcount, hmode⟩ => ⟨?_, hmode⟩
    change 4 ≤ min 4 (s.line.consecutive + 1)
    omega
  refine ⟨fun hclaim => ?_, fun r c hjob hfallen hc hstate hattempts h => ?_⟩
  · have halike : Alike d (d.ownerDropped f) := by
      unfold State.ownerDropped
      split
      · exact .refl d
      · exact d.addFull_alike _
      · next q hjob =>
        split
        · have hleave : ¬(d.ctl.mode = .leaving ∧ d.line.consecutive < Config.dropLimit) := by
            rintro ⟨-, hlt⟩
            obtain ⟨hjoin, -⟩ | ⟨h4, -⟩ := hlimit' (t := d) rfl rfl
            · simp [hjob] at hjoin
            · exact absurd hlt (Nat.not_lt.2 h4)
          rw [if_neg hleave]
          exact .refl d
        · next r =>
          refine dropClaim_alike fun c hfallen hc => hclaim r c hjob hfallen ?_
          rwa [droppedState_live] at hc
        · exact d.dropHandover_alike f _
        · exact d.dropTake_alike _
        · exact d.dropRelease_alike f _
        all_goals exact .refl d
    obtain ⟨u, hu, hdown⟩ := isolateIfLimit_limit (f := f) (t := d.ownerDropped f)
      (hlimit' halike.ctl (congrArg LineUnit.consecutive halike.line :))
    exact ⟨u, by rw [exec_dropped hsending hattempt, hu], halike.wentDown hdown⟩
  · intro e
    have hcounted : countedClaim c = { c with attempts := 3 } := by
      simp only [countedClaim, ClaimRecord.mk.injEq, true_and, and_true]
      omega
    have hlive : d.liveRecord r = some c := (droppedState_live f s r).trans hc
    have hfailed := dropClaim_fails hfallen hlive hstate (by rw [hcounted]; exact Nat.lt_irrefl 3) h
    rw [hcounted] at hfailed
    have hdropped : d.ownerDropped f = d.dropClaim f r := by rw [State.ownerDropped, hjob]
    obtain ⟨u, hu, hdown⟩ := isolateIfLimit_limit (f := f) (t := d.dropClaim f r)
      (hlimit' (congrArg State.ctl hfailed.frame :) (failed_consecutive hfailed :))
    exact ⟨_, u, hfailed, by rw [exec_dropped hsending hattempt, hdropped, hu], hdown⟩

end Sys2Proof.Machine

/-! Expiries and the home backlog: the timers of the station (O50), of a region and of its record (O52), and the home claims (O53). -/

namespace Sys2Proof.Machine

open Sys2Proof.Safety

/-! ### The station's timers (O50) -/

/-- A full addition for every region, in one equation. -/
theorem addFullAll_eq (s : State) : s.addFullAll = { s with pub := addedAll s } := by
  have h := State.forRegions_induct (f := State.addFull) (P := fun done t => t = { s with
    pub := if s.pub.barred = true then s.pub else { s.pub with
      set := Vector.ofFn fun r => if r ∈ done ∧ (s.entry r).role = .owner then fullAddition (s.pubEntry r) else s.pubEntry r } })
    s ?_ ?_
  · simpa [addedAll, State.addFullAll] using h
  · have hset : (Vector.ofFn fun r => s.pubEntry r) = s.pub.set := pick_ext fun r => by simp [State.pubEntry]
    simp [hset]
  · intro done r t hr ht
    by_cases hb : s.pub.barred = true
    · rw [if_pos hb] at ht ⊢
      rw [State.addFull_added, added, if_pos (by rw [ht]; exact hb)]
      exact ht
    · rw [if_neg hb] at ht ⊢
      rw [ofFn_append (p := fun r => (s.entry r).role = .owner) _ _ done hr]
      have hpick : pick (Vector.ofFn fun q => if q ∈ done ∧ (s.entry q).role = .owner then fullAddition (s.pubEntry q) else s.pubEntry q) r =
        s.pubEntry r := by simp [hr]
      generalize (Vector.ofFn fun q => if q ∈ done ∧ (s.entry q).role = .owner then fullAddition (s.pubEntry q) else s.pubEntry q) = V at *
      have hpub : t.pubEntry r = s.pubEntry r := by rw [ht]; exact hpick
      have hrole : (t.entry r).role = (s.entry r).role := by rw [ht]; rfl
      rw [State.addFull_added, added, if_neg (by rw [ht]; exact hb), fullyAdded, hpub, hrole, ht]
      split <;> rfl

/-- Settles O50: the listen, leave, presence and refresh timers. -/
theorem stationTimersExpire : Obligations.StationTimersExpire := by
  intro s
  refine ⟨fun hmode hdue hq => ?_, fun hmode hdue hq => ?_, fun hdue => ?_, fun hdue => ?_⟩
  · refine congrArg Host.Outcome.next ?_
    rw [State.listenExpires, if_pos ⟨hmode, hdue⟩]
    dsimp only
    rw [State.transition_eq, State.hand_eq _ _ (by exact hq)]
  · refine ⟨s.queueLeave, congrArg Host.Outcome.next (if_pos ⟨hmode, hdue, hq⟩), rfl, rfl, ?_, rfl, ?_, ?_, ?_, ?_, ?_⟩
    · exact fun r => pick_replicate _ r
    · exact fun r => pick_ofFn _ r
    · exact fun r => pick_ofFn _ r
    · exact fun r => pick_ofFn _ r
    · unfold State.queueLeave; rfl
    · unfold State.queueLeave; rfl
  · exact congrArg Host.Outcome.next (if_pos hdue)
  · refine congrArg Host.Outcome.next ?_
    rw [State.refreshExpires, if_pos hdue, addFullAll_eq]
    rfl

/-! ### The timers of a region and of its record (O52) -/

/-- The CLAIMs of a record are exhausted where the directory owner is PRESENT. -/
theorem exhaust_present {s : State} {r : Region} (h : ∃ p, (s.entry r).owner = some p ∧ (s.peer p).state = .present) :
    s.exhaust r = s.failRecord r .noAnswer := by
  obtain ⟨p, howner, hpresent⟩ := h
  rw [State.exhaust, howner]
  exact if_pos ((isPresent_iff s p).2 hpresent)

/-- And where it is not, the record goes on as an ORPHAN claim. -/
theorem exhaust_lost {s : State} {r : Region} (h : ∀ p, (s.entry r).owner = some p → (s.peer p).state ≠ .present) :
    s.exhaust r = orphanedClaim r s := by
  rw [← State.toOrphanClaim_eq, State.exhaust]
  split
  · next p howner => exact if_neg fun hpresent => h p howner ((isPresent_iff s p).1 hpresent)
  · rfl

theorem orphanedClaim_normal {s : State} {r : Region} {c : ClaimRecord} (hc : s.liveRecord r = some c) (hkind : c.kind = .normal) :
    orphanedClaim r s = { s with claims := recorded r (orphanClaim c) s, line := wanted r s } := by
  rw [orphanedClaim, hc]
  exact if_pos hkind

section
variable {s : State} {r : Region} {c : ClaimRecord}

theorem wanted_open (hq : s.ctl.leaveQueued = false) : wanted r s = claimLine r s := by simp [wanted, hq]

theorem answerExpires_eq (hc : s.liveRecord r = some c) (hkind : c.kind = .normal) (hstate : c.state = .asked) (hdue : c.answer.due = true) :
    s.answerExpires r = if c.attempts < 3 then { s with
      claims := recorded r { c with state := .asking, answer := .stopped } s, line := wanted r s } else s.exhaust r := by
  rw [State.answerExpires, hc]
  dsimp only
  rw [if_pos ⟨hkind, hstate, hdue⟩, State.needClaim_wanted]
  rfl

/-- The orphan-wait timer of an ORPHAN record expires, by the record's state. -/
theorem orphanWaitExpires_eq (hc : s.liveRecord r = some c) (hkind : c.kind = .orphan) (hdue : c.orphanWait.due = true) :
    s.orphanWaitExpires r = match c.state with
      | .orphanWait => { s with claims := recorded r { c with state := .taking, orphanWait := .stopped } s, line := handed (.take r) s }
      | .deferred =>
        if c.attempts < 3 then { s with
          claims := recorded r { c with state := .asking, orphanWait := .stopped, deferredTo := none } s, line := wanted r s }
        else s.failRecord r .noAnswer
      | .asking | .asked | .queued | .taking => s := by
  rw [State.orphanWaitExpires, hc]
  dsimp only
  rw [if_pos ⟨hkind, hdue⟩, State.needClaim_wanted, State.hand_handed]
  rfl

end

/-- Settles O52: the expiries of a region's timers and of its record's. -/
theorem claimTimersExpire : Obligations.ClaimTimersExpire := by
  intro s r
  refine ⟨fun hdue hl => ?_, fun hdue => congrArg Host.Outcome.next (if_pos hdue), fun c hc hq => ⟨fun hkind hstate hdue => ?_,
    fun hkind hdue => ?_, fun hkind hdue => ?_⟩⟩
  · have hserve : exec (.tenureTimerExpiry r) s =
        .next (State.serve r { s with dir := put s.dir r { s.entry r with tenure := .stopped } }) :=
      congrArg Host.Outcome.next (if_pos hdue)
    intro u
    refine ⟨fun h => hserve.trans (congrArg Host.Outcome.next ?_), fun h => hserve.trans (congrArg Host.Outcome.next (serve_unservable h))⟩
    exact serve_servable h (Servable.notQueued h hl)
  · have hexec : exec (.answerTimerExpiry r) s = .next _ := congrArg Host.Outcome.next (answerExpires_eq hc hkind hstate hdue)
    refine ⟨fun hcount => ?_, fun hcount hlost => ?_, fun hcount hpresent => ?_⟩
    · rw [hexec, if_pos hcount, wanted_open hq]
    · rw [hexec, if_neg (by omega), exhaust_lost hlost, orphanedClaim_normal hc hkind, wanted_open hq]
    · rw [hexec, if_neg (by omega), exhaust_present hpresent]
      exact ⟨_, rfl, State.failRecord_failed r _ c s hc hq⟩
  · refine ⟨_, rfl, ?_⟩
    rw [State.patienceExpires, hc]
    dsimp only
    rw [if_pos ⟨hkind, hdue⟩]
    exact State.failRecord_failed r _ c s hc hq
  · have hexec : exec (.orphanWaitTimerExpiry r) s = .next _ := congrArg Host.Outcome.next (orphanWaitExpires_eq hc hkind hdue)
    refine ⟨fun hstate => ?_, fun hstate hcount => ?_, fun hstate hcount => ?_⟩
    · rw [hexec, hstate, handed, if_neg (by simp [hq])]
    · rw [hexec, hstate]
      dsimp only
      rw [if_pos hcount, wanted_open hq]
    · rw [hexec, hstate]
      dsimp only
      rw [if_neg (by omega)]
      exact ⟨_, rfl, State.failRecord_failed r _ c s hc hq⟩

/-! ### The home backlog (O53) -/

/-- The home backlog's front region in ACTIVE, by the table of R116. -/
theorem takeHome_front {s : State} {r : Region} {rest : List Region} (hmode : s.ctl.mode = .active) (hback : s.ctl.backlog = r :: rest) :
    s.takeHome =
      if (s.entry r).role.owns = true ∨ (s.liveRecord r).isSome = true then { s with ctl := { s.ctl with backlog := rest } }
      else if s.claimTaken r = true then State.requestClaim r .home { s with ctl := { s.ctl with backlog := rest } }
      else s := by
  rw [State.takeHome, hmode, hback]

/-- Settles O53: the front region of the home backlog is owned or claimed already, can be claimed, or waits for a slot. -/
theorem homeBacklog : Obligations.HomeBacklog := by
  intro s r rest hmode hq hback
  have hexec : exec .homeClaim s = .next _ := congrArg Host.Outcome.next (takeHome_front hmode hback)
  refine ⟨fun h => ?_, fun h => ?_, fun howns hlive hfull => ?_⟩
  · rw [hexec, if_pos h]
  · rw [hexec, if_neg (by simp [h.1, h.2.1]), if_pos ((claimTaken_iff hmode r).2 h), State.requestClaim_eq _ _ _ (by exact hq)]
    rfl
  · rw [hexec, if_neg (by simp [howns, hlive]), if_neg (mt (claimTaken_iff hmode r).1 hfull)]

end Sys2Proof.Machine

/-! Claim traffic received: a CLAIM (O42), a WAIT (O43) and a REFUSE (O44). -/

namespace Sys2Proof.Machine

open Sys2Proof.Safety

/-! ### A received CLAIM (O42) -/

theorem exec_claimReceived {s : State} {h : Header} {p : Station} {r : Region} (H : Heard s h p) (hr : regionOf h.region = some r) :
    exec (.claimReceived h) s = .next ((heardFrom h p s).takeClaim p r) := congrArg Host.Outcome.next (State.receive_region H hr _)

theorem tableRoom_iff (s : State) (r : Region) : s.tableRoom r = true ↔ (s.claimants r).length < 4 ∧ s.claims.table.length < 16 := by
  rw [State.tableRoom, Bool.and_eq_true]
  exact and_congr decide_eq_true_iff decide_eq_true_iff

/-- A claimant appended stands last in the queue of its region. -/
theorem appendClaimant_claimants (s : State) (r : Region) (p : Station) : (s.appendClaimant r p).claimants r = s.claimants r ++ [p] := by
  simp [State.claimants, State.appendClaimant]

section
variable {s : State} {r : Region} {p : Station}

/-- The position of a claimant by its first place in the queue. -/
theorem position_of_first {i : Nat} (h : (s.claimants r)[i]? = some p) (hfirst : ∀ j, j < i → (s.claimants r)[j]? ≠ some p) :
    s.position r p = i + 1 := by
  obtain ⟨hi, hp⟩ := List.getElem?_eq_some_iff.1 h
  refine congrArg (· + 1) ((List.findIdx_eq hi).2 ⟨by simpa using hp, fun j hj => ?_⟩)
  have hne := hfirst j hj
  rw [List.getElem?_eq_getElem (hj.trans hi)] at hne
  simpa using hne

theorem claimAtOwner_known (h : p ∈ s.claimants r) : s.claimAtOwner p r = { s with line := replied (.wait r p (s.position r p)) s } := by
  rw [State.claimAtOwner, if_pos h, State.answer_replied]

theorem claimAtOwner_new (h : p ∉ s.claimants r) (hroom : s.tableRoom r = true) :
    s.claimAtOwner p r = State.goOn r { s.appendClaimant r p with line := replied (.wait r p ((s.claimants r).length + 1)) s } := by
  have hqueue := appendClaimant_claimants s r p
  have hposition : (s.appendClaimant r p).position r p = (s.claimants r).length + 1 := by
    rw [State.position, hqueue, List.idxOf_append_of_notMem h]
    simp
  have hclaimants : State.claimants { s.appendClaimant r p with line := replied (.wait r p ((s.claimants r).length + 1)) s } r ≠ [] := by
    intro hnil
    have : (s.appendClaimant r p).claimants r = [] := hnil
    simp [hqueue] at this
  rw [State.goOn_serve _ _ hclaimants, State.claimAtOwner, if_neg h, if_pos hroom]
  dsimp only
  rw [hposition, State.answer_replied]
  rfl

theorem claimAtOwner_full (h : p ∉ s.claimants r) (hroom : ¬s.tableRoom r = true) :
    s.claimAtOwner p r = { s with line := replied (.refuse r p .queueFull (some s.ctl.ownId)) s } := by
  rw [State.claimAtOwner, if_neg h, if_neg hroom, State.answer_replied]

theorem claimAtLeaver_queued (hq : s.ctl.leaveQueued = true) : s.claimAtLeaver p r = s := if_pos hq

/-- A CLAIM at an owner in LEAVING whose handover is pending. -/
theorem claimAtLeaver_pending (hq : s.ctl.leaveQueued = false) (hpending : (s.serving r).handover ≠ .idle) :
    s.claimAtLeaver p r = if p ∈ s.claimants r then s else if s.tableRoom r = true then s.appendClaimant r p
      else { s with line := replied (.refuse r p .leaving (some s.ctl.ownId)) s } := by
  rw [State.claimAtLeaver, if_neg (by simp [hq]), if_pos (by simpa [State.handoverPending] using hpending), State.answer_replied]

theorem claimAtLeaver_refused (hq : s.ctl.leaveQueued = false)
    (h : (s.serving r).handover = .idle ∨ (p ∉ s.claimants r ∧ ¬s.tableRoom r = true)) :
    s.claimAtLeaver p r = { s with line := replied (.refuse r p .leaving (some s.ctl.ownId)) s } := by
  by_cases hpending : (s.serving r).handover = .idle
  · rw [State.claimAtLeaver, if_neg (by simp [hq]), if_neg (by simp [State.handoverPending, hpending]), State.answer_replied]
  · obtain ⟨hnew, hroom⟩ := h.resolve_left hpending
    rw [claimAtLeaver_pending hq hpending, if_neg hnew, if_neg hroom]

theorem claimAtJoiner_new (h : p ∉ s.claimants r) (hroom : s.tableRoom r = true) : s.claimAtJoiner p r = s.appendClaimant r p := by
  rw [State.claimAtJoiner, if_neg h, if_pos hroom]

theorem claimAtJoiner_ignored (h : p ∈ s.claimants r ∨ ¬s.tableRoom r = true) : s.claimAtJoiner p r = s := by
  by_cases hknown : p ∈ s.claimants r
  · exact if_pos hknown
  · rw [State.claimAtJoiner, if_neg hknown, if_neg (h.resolve_left hknown)]

/-- A rival's CLAIM where this station holds an ORPHAN claim. -/
theorem claimAtOther_orphan {c : ClaimRecord} (hc : s.liveRecord r = some c) (hkind : c.kind = .orphan) :
    s.claimAtOther p r = if c.state = .asking then { s with
      claims := recorded r { c with state := .deferred, deferredTo := some p, orphanWait := .running (2 * s.ctl.config.param 4) } s
      line := unaskedLine r s.line } else s := by
  obtain ⟨origin, kind, state, attempts, answer, patience, wait, deferredTo, queuedAt⟩ := c
  obtain rfl : kind = .orphan := hkind
  rw [State.claimAtOther, hc]
  dsimp only
  rw [State.compareOrphan, State.claimWithdrawn_eq]
  cases state <;> rfl

theorem claimAtOther_redirects (h : ∀ c, s.liveRecord r = some c → c.kind = .normal) : s.claimAtOther p r = s.redirectClaim p r := by
  unfold State.claimAtOther
  split
  · next c hc => rw [h c hc]
  · rfl

end

section
variable {s : State} {h : Header} {p : Station} {r : Region}

/-- What a received CLAIM does at an owner, by its mode. -/
theorem exec_claimAtOwned (H : Heard s h p) (hr : regionOf h.region = some r) (howns : (s.entry r).role.owns = true) :
    (s.ctl.mode = .active → exec (.claimReceived h) s = .next ((heardFrom h p s).claimAtOwner p r)) ∧
    (s.ctl.mode = .leaving → exec (.claimReceived h) s = .next ((heardFrom h p s).claimAtLeaver p r).leaveIfDone) ∧
    (s.ctl.mode = .listen ∨ s.ctl.mode = .joining → exec (.claimReceived h) s = .next ((heardFrom h p s).claimAtJoiner p r)) := by
  have htake : (heardFrom h p s).takeClaim p r = _ := if_pos howns
  rw [exec_claimReceived H hr, htake, heardFrom_ctl]
  refine ⟨fun hmode => by rw [hmode], fun hmode => by rw [hmode], ?_⟩
  rintro (hmode | hmode) <;> rw [hmode]

theorem exec_claimAtOther (H : Heard s h p) (hr : regionOf h.region = some r) (howns : (s.entry r).role.owns = false) :
    exec (.claimReceived h) s = .next ((heardFrom h p s).claimAtOther p r) := by
  rw [exec_claimReceived H hr]
  exact congrArg Host.Outcome.next (if_neg (by simp [howns]))

end

/-- Settles O42: a received CLAIM, at an owner by the state of the station, and elsewhere by the record that stands. -/
theorem claimReceived : Obligations.ClaimReceived := by
  intro s h p r H hr u queued room
  have hroom : u.tableRoom r = true ↔ room := tableRoom_iff u r
  refine ⟨fun howns => ?_, fun howns => ?_⟩
  · obtain ⟨hactive, hleaving, hjoining⟩ := exec_claimAtOwned H hr howns
    refine ⟨fun hmode => ?_, fun hmode hq => ?_, fun hmode hq => ?_, fun hmode => ?_⟩
    · rw [hactive hmode]
      refine ⟨fun i hi hfirst => ?_, fun hnew h => ?_, fun hnew h => ?_⟩
      · have hknown : p ∈ u.claimants r := List.mem_of_getElem? (by exact hi)
        rw [claimAtOwner_known hknown, position_of_first (by exact hi) (by exact hfirst)]
      · exact congrArg Host.Outcome.next (claimAtOwner_new hnew (hroom.2 h))
      · exact congrArg Host.Outcome.next (claimAtOwner_full hnew (mt hroom.1 h))
    · rw [hleaving hmode, claimAtLeaver_queued (by exact hq)]
      exact congrArg Host.Outcome.next (leaveIfDone_not (.inr (.inl hq)))
    · rw [hleaving hmode]
      refine ⟨fun hpending hknown => ?_, fun hpending hnew h => ?_, fun h => ?_⟩
      · rw [claimAtLeaver_pending (by exact hq) (by exact hpending), if_pos (by exact hknown)]
      · rw [claimAtLeaver_pending (by exact hq) (by exact hpending), if_neg (by exact hnew), if_pos (hroom.2 h)]
        rfl
      · rw [claimAtLeaver_refused (by exact hq) (h.imp (by exact id) fun h => ⟨h.1, mt hroom.1 h.2⟩)]
        rfl
    · rw [hjoining hmode]
      exact ⟨fun hnew h => congrArg Host.Outcome.next (claimAtJoiner_new hnew (hroom.2 h)),
        fun h => congrArg Host.Outcome.next (claimAtJoiner_ignored (h.imp (by exact id) (mt hroom.1)))⟩
  · rw [exec_claimAtOther H hr howns]
    refine ⟨fun c hc hkind => ?_, fun hnormal => ?_⟩
    · rw [claimAtOther_orphan (by exact hc) hkind]
      exact ⟨fun hstate => congrArg Host.Outcome.next (if_pos hstate), fun hstate => congrArg Host.Outcome.next (if_neg hstate)⟩
    · rw [claimAtOther_redirects (by exact hnormal), State.redirectClaim_eq]
      rfl

/-! ### A received WAIT (O43) -/

theorem exec_waitReceived {s : State} {h : Header} {p : Station} {r : Region} (H : Heard s h p) (hr : regionOf h.region = some r)
    (claimant position : Byte) : exec (.waitReceived h claimant position) s = .next ((heardFrom h p s).takeWait p claimant r) :=
  congrArg Host.Outcome.next (State.receive_region H hr _)

section
variable {s : State} {r : Region} {p : Station} {c : ClaimRecord}

theorem waitAtRecord_normal (hkind : c.kind = .normal) : s.waitAtRecord p r c = { s with
    claims := recorded r { c with
      state := .queued, answer := .stopped, attempts := 0, queuedAt := some p
      patience := if c.patience = .stopped then .running (100 * s.ctl.config.param 3) else c.patience } s
    line := { s.line with marks := s.line.marks.filter fun m => m != .claim r } } := by
  have hpatience : (if c.patience.isRunning = true then c.patience else Timer.start s.ctl.config.patienceMs) =
      if c.patience = .stopped then .running (100 * s.ctl.config.param 3) else c.patience := by
    cases c.patience <;> simp [Timer.isRunning, Timer.start, ConfigBlock.patienceMs]
  obtain ⟨origin, kind, state, attempts, answer, patience, wait, deferredTo, queuedAt⟩ := c
  obtain rfl : kind = .normal := hkind
  rw [State.waitAtRecord, hpatience]
  rfl

theorem waitAtRecord_orphan (hkind : c.kind = .orphan) : s.waitAtRecord p r c = if c.state = .taking then s else { s with
    claims := recorded r { c with
      kind := .normal, state := .queued, attempts := 0, queuedAt := some p, orphanWait := .stopped, deferredTo := none
      patience := .running (100 * s.ctl.config.param 3) } s
    line := unaskedLine r s.line } := by
  obtain ⟨origin, kind, state, attempts, answer, patience, wait, deferredTo, queuedAt⟩ := c
  obtain rfl : kind = .orphan := hkind
  rw [State.waitAtRecord, State.claimWithdrawn_eq]
  cases state <;> rfl

end

/-- Settles O43: a received WAIT, by the station it names and the record that stands. -/
theorem waitReceived : Obligations.WaitReceived := by
  intro s h p r claimant position H hr u
  rw [exec_waitReceived H hr]
  refine ⟨fun hother => congrArg Host.Outcome.next (if_neg hother), fun hown => ?_⟩
  have htake : u.takeWait p claimant r = match u.liveRecord r with
      | some c => u.waitAtRecord p r c
      | none => if u.closing r = true ∨ (u.entry r).role.owns = true then u else u.withdrawIfRoom r := if_pos hown
  have hlive : u.liveRecord r = s.liveRecord r := rfl
  rw [show heardFrom h p s = u from rfl, htake, hlive]
  refine ⟨fun c hc hkind => ?_, fun c hc hkind hstate => ?_, fun c hc hkind hstate => ?_, fun h => ?_, fun hrecord howns => ?_⟩
  · rw [hc]; dsimp only
    rw [waitAtRecord_normal hkind]; rfl
  · rw [hc]; dsimp only
    rw [waitAtRecord_orphan hkind, if_neg hstate]; rfl
  · rw [hc]; dsimp only
    rw [waitAtRecord_orphan hkind, if_pos hstate]
  · have hnone : s.liveRecord r = none := h.elim (fun hclosing => if_pos hclosing) fun h => h.1
    rw [hnone]
    exact congrArg Host.Outcome.next (if_pos (h.imp (by exact id) (by exact fun h => h.2)))
  · have hclosing : s.closing r = false := by simp [State.closing, hrecord]
    have hnone : s.liveRecord r = none := by simp [State.liveRecord, hrecord]
    rw [hnone]
    dsimp only
    have hclosing' : u.closing r = false := hclosing
    have howns' : (u.entry r).role.owns = false := howns
    rw [if_neg (by simp [hclosing', howns']), State.withdrawIfRoom_line]

/-! ### A received REFUSE (O44) -/

theorem reasonOf_none (why : Byte) (h : why = 0 ∨ 4 ≤ why.toNat) : reasonOf why = none := by
  have h1 : why ≠ 1 := by rintro rfl; simp at h
  have h2 : why ≠ 2 := by rintro rfl; simp at h
  have h3 : why ≠ 3 := by rintro rfl; simp at h
  rw [reasonOf, if_neg h1, if_neg h2, if_neg h3]

/-- The live owner that a NOT_OWNER refusal points to. -/
theorem liveBelieved_iff (s : State) (src : Station) (believed : Byte) (b : Station) : s.liveBelieved src believed = some b ↔
    stationOf believed = some b ∧ b ≠ s.ctl.ownId ∧ b ≠ src ∧ (s.peer b).state = .present := by
  unfold State.liveBelieved
  cases hstation : stationOf believed with
  | none => simp
  | some q =>
    have hpresent := isPresent_iff s q
    dsimp only
    split
    · next hdead =>
      refine iff_of_false (by simp) ?_
      rintro ⟨hq, hown, hsrc, hb⟩
      obtain rfl : q = b := by simpa using hq
      simp [hown, hsrc, hpresent.2 hb] at hdead
    · next hlive =>
      push Not at hlive
      obtain ⟨hown, hsrc, hq⟩ := hlive
      refine ⟨fun h => ?_, fun h => h.1⟩
      obtain rfl : q = b := by simpa using h
      exact ⟨rfl, hown, hsrc, hpresent.1 (by simpa using hq)⟩

section
variable {s : State} {r : Region} {p : Station} {c : ClaimRecord} {believed : Byte}

/-- A NORMAL record that takes NOT_OWNER toward a live owner. -/
theorem refuseNormal_redirected {b : Station} (hb : s.liveBelieved p believed = some b) :
    s.refuseNormal p .notOwner believed r c =
      if c.state = .asking then s.redirectTo r b
      else if c.attempts < 3 then { s.redirectTo r b with
        claims := recorded r { c with state := .asking, answer := .stopped } s, line := wanted r s }
      else (s.redirectTo r b).failRecord r .refused := by
  rw [State.refuseNormal]
  dsimp only
  rw [hb]
  dsimp only
  rw [State.needClaim_wanted]
  rfl

theorem refuseNormal_orphaned (hnone : s.liveBelieved p believed = none) :
    s.refuseNormal p .notOwner believed r c = orphanedClaim r s := by
  rw [State.refuseNormal, ← State.toOrphanClaim_eq, hnone]

theorem refuseNormal_queueFull : s.refuseNormal p .queueFull believed r c =
    if c.state = .asking then s
    else if c.attempts < 3 then { s with
      claims := recorded r { c with state := .asked, answer := .running (4 * s.ctl.config.param 2) } s }
    else s.failRecord r .refused := rfl

theorem refuseOrphan_redirected {b : Station} (hb : s.liveBelieved p believed = some b) :
    s.refuseOrphan p .notOwner believed r c = normalizedClaim r (s.redirectTo r b) := by
  rw [State.refuseOrphan, ← State.toNormalClaim_eq]
  rw [hb]

theorem refuseOrphan_ignored (hnone : s.liveBelieved p believed = none) : s.refuseOrphan p .notOwner believed r c = s := by
  rw [State.refuseOrphan, hnone]

theorem refuseOrphan_queueFull : s.refuseOrphan p .queueFull believed r c =
    if c.state = .taking then s else { s with
      claims := recorded r { c with
        kind := .normal, state := .asked, attempts := 0, orphanWait := .stopped, deferredTo := none
        answer := .running (4 * s.ctl.config.param 2) } s
      line := unaskedLine r s.line } := by
  rw [State.refuseOrphan, State.claimWithdrawn_eq]
  rfl

/-- In ASKING and ASKED a NORMAL record takes a REFUSE from any source, in QUEUED from two. -/
theorem refuseTaken_iff (hkind : c.state = .asking ∨ c.state = .asked ∨ c.state = .queued) (owner : Option Station) :
    refuseTaken c owner p = true ↔ c.state = .asking ∨ c.state = .asked ∨ (c.state = .queued ∧ (c.queuedAt = some p ∨ owner = some p)) := by
  unfold refuseTaken
  rcases hkind with h | h | h <;> simp [h]

end

section
variable {s : State} {h : Header} {p : Station} {r : Region}

theorem exec_refuseReceived (H : Heard s h p) (hr : regionOf h.region = some r) (claimant reason believed : Byte) :
    exec (.refuseReceived h claimant reason believed) s = .next ((heardFrom h p s).takeRefuse p claimant reason believed r) :=
  congrArg Host.Outcome.next (State.receive_region H hr _)

theorem exec_refuseIgnored (H : Heard s h p) (hr : regionOf h.region = some r) {claimant reason believed : Byte}
    (hnot : stationOf claimant ≠ some s.ctl.ownId ∨ s.liveRecord r = none ∨ reasonOf reason = none) :
    exec (.refuseReceived h claimant reason believed) s = .next (heardFrom h p s) := by
  rw [exec_refuseReceived H hr, State.takeRefuse, heardFrom_liveRecord]
  rcases hnot with hother | hnone | hnone
  · exact congrArg Host.Outcome.next (if_neg hother)
  · rw [hnone]
    cases reasonOf reason <;> exact congrArg Host.Outcome.next (ite_self _)
  · rw [hnone]
    exact congrArg Host.Outcome.next (ite_self _)

/-- A REFUSE that names this station and gives a reason, at its live record. -/
theorem exec_refuseRecord (H : Heard s h p) (hr : regionOf h.region = some r) {claimant reason believed : Byte} {c : ClaimRecord}
    {why : RefuseReason} (hown : stationOf claimant = some s.ctl.ownId) (hc : s.liveRecord r = some c)
    (hreason : reasonOf reason = some why) :
    exec (.refuseReceived h claimant reason believed) s = .next (match c.kind with
      | .normal =>
        if refuseTaken c (s.entry r).owner p = true then (heardFrom h p s).refuseNormal p why believed r c else heardFrom h p s
      | .orphan => (heardFrom h p s).refuseOrphan p why believed r c) := by
  have htake : (heardFrom h p s).takeRefuse p claimant reason believed r = _ := if_pos hown
  rw [exec_refuseReceived H hr, htake, heardFrom_liveRecord, hreason, hc]
  rfl

end

/-- Settles O44: a received REFUSE, by the station it names, its reason, and the record that stands. -/
theorem refuseReceived : Obligations.RefuseReceived := by
  intro s h p r claimant believed H hr u
  refine ⟨fun why hnot => exec_refuseIgnored H hr (hnot.imp_right fun hnot => hnot.imp_right (reasonOf_none why)),
    fun c hown hc hq => ?_⟩
  intro live led fails
  have hlive (b : Station) : u.liveBelieved p believed = some b ↔ live b := by
    rw [liveBelieved_iff, heardFrom_peer_state]
    exact Iff.rfl
  have hdead (hnone : ∀ b, ¬live b) : u.liveBelieved p believed = none :=
    Option.eq_none_iff_forall_ne_some.2 fun b hb => hnone b ((hlive b).1 hb)
  have hcu : u.liveRecord r = some c := hc
  have hfailed (v : State) (hv : v.liveRecord r = some c) (hvq : v.ctl.leaveQueued = false) :
      Failed r .refused c v (v.failRecord r .refused) := State.failRecord_failed r _ c v hv hvq
  refine ⟨fun hkind => ⟨fun hstate hat howner why => ?_, fun htaken => ?_⟩, fun hkind => ?_⟩
  · cases hreason : reasonOf why with
    | none => exact exec_refuseIgnored H hr (.inr (.inr hreason))
    | some reason =>
      rw [exec_refuseRecord H hr hown hc hreason, hkind]
      refine congrArg Host.Outcome.next (if_neg ?_)
      simp [refuseTaken_iff (.inr (.inr hstate)), hstate, hat, howner]
  · have htake : refuseTaken c (s.entry r).owner p = true :=
      (refuseTaken_iff (htaken.imp_right fun h => h.imp_right And.left) _).2 htaken
    have hexec (reason : Byte) (why : RefuseReason) (hreason : reasonOf reason = some why) :
        exec (.refuseReceived h claimant reason believed) s = .next (u.refuseNormal p why believed r c) := by
      rw [exec_refuseRecord H hr hown hc hreason, hkind]
      exact congrArg Host.Outcome.next (if_pos htake)
    have hnotOwner := hexec 1 .notOwner rfl
    have hfull := hexec 2 .queueFull rfl
    rw [refuseNormal_queueFull] at hfull
    refine ⟨fun hnone => ?_, fun b hb => ?_, fun hstate => ?_, fun hstate hcount => ?_, fun hstate hcount => ?_, ?_⟩
    · rw [hnotOwner, refuseNormal_orphaned (hdead hnone)]
    · rw [hnotOwner, refuseNormal_redirected ((hlive b).2 hb)]
      refine ⟨fun hstate => ?_, fun hstate hcount => ?_, fun hstate hcount => ?_⟩
      · rw [if_pos hstate]; rfl
      · rw [if_neg hstate, if_pos hcount]; rfl
      · rw [if_neg hstate, if_neg (by omega)]
        exact ⟨_, rfl, hfailed (led b) hc hq⟩
    · rw [hfull, if_pos hstate]
    · rw [hfull, if_neg hstate, if_pos hcount]; rfl
    · rw [hfull, if_neg hstate, if_neg (by omega)]
      exact ⟨_, rfl, hfailed u hcu hq⟩
    · exact ⟨_, hexec 3 .leaving rfl, hfailed u hcu hq⟩
  · have hexec (reason : Byte) (why : RefuseReason) (hreason : reasonOf reason = some why) :
        exec (.refuseReceived h claimant reason believed) s = .next (u.refuseOrphan p why believed r c) := by
      rw [exec_refuseRecord H hr hown hc hreason, hkind]
    have hnotOwner := hexec 1 .notOwner rfl
    have hfull := hexec 2 .queueFull rfl
    have hleaving := hexec 3 .leaving rfl
    rw [refuseOrphan_queueFull] at hfull
    refine ⟨fun hnone => ?_, fun b hb => ?_, fun hstate => ⟨?_, ?_⟩, fun hstate => ⟨?_, ?_⟩⟩
    · rw [hnotOwner, refuseOrphan_ignored (hdead hnone)]
    · rw [hnotOwner, refuseOrphan_redirected ((hlive b).2 hb)]
      rfl
    · rw [hfull, if_pos hstate]
    · rw [hleaving]
      exact congrArg Host.Outcome.next (if_pos hstate)
    · rw [hfull, if_neg hstate]
      rfl
    · exact ⟨_, hleaving.trans (congrArg Host.Outcome.next (if_neg hstate)), hfailed u hcu hq⟩

end Sys2Proof.Machine

/-! The receive dispatch: bad bursts, ID clashes and frames that reach the roster only (O38), and announcements (O39). -/

namespace Sys2Proof.Machine

open Sys2Proof.Safety

/-! ### What is sensed in which state (R171) -/

section
variable {s : State}

theorem sense_nothing (h : s.ctl.mode = .reset ∨ s.transmitting = true) (b : Burst) (take : State → State) : s.sense b take = s :=
  if_pos h

theorem sense_found (hmode : s.ctl.mode = .config ∨ s.ctl.mode = .offline ∨ s.ctl.mode = .isolated) (hsilent : s.transmitting = false)
    (b : Burst) (take : State → State) : s.sense b take = s.foundBurst b := by
  have hquiet : s.ctl.mode ≠ .reset ∧ s.ctl.mode.receives = false := by rcases hmode with h | h | h <;> simp [h, Mode.receives]
  rw [State.sense, if_neg (by simp [hquiet, hsilent]), if_neg (by simp [hquiet])]

theorem sense_taken (hmode : s.ctl.mode.receives = true) (hsilent : s.transmitting = false) (b : Burst) (take : State → State) :
    s.sense b take = take (s.foundBurst b) := by
  have hreset : s.ctl.mode ≠ .reset := by intro h; simp [h, Mode.receives] at hmode
  rw [State.sense, if_neg (by simp [hreset, hsilent]), if_pos hmode]

end

/-- A good frame counted is its burst recorded and the statistic raised. -/
theorem countGood_eq (source : Byte) (s : State) :
    (s.foundBurst (.good source)).countGood = { s with line := burstLine source s.line } := by
  simp [State.countGood, State.foundBurst, burstLine, satSucc_eq]

/-- A frame of a kind that the roster only restarts its timer for, received with the blocks of its kind. -/
theorem exec_carries {c : Instr} {h : Header} (hc : Carries c h) :
    ∃ blocks, ∀ s, exec c s = .next (s.receive h .other blocks) := by
  cases hc with
  | unknown code _ hcode => exact ⟨_, fun s => if_pos hcode⟩
  | update _ _ _ _ hwf => exact ⟨_, fun s => if_pos hwf⟩
  | claim | wait | refuse | withdraw | handover | take | release | repair => exact ⟨_, fun s => rfl⟩

/-- A frame of any kind, received by its roster view with the blocks of its kind. -/
theorem exec_framed {c : Instr} {h : Header} (hc : Framed c h) : ∃ v blocks, ∀ s, exec c s = .next (s.receive h v blocks) := by
  cases hc with
  | other _ _ hc =>
    obtain ⟨blocks, hexec⟩ := exec_carries hc
    exact ⟨_, blocks, hexec⟩
  | presence | join | leave => exact ⟨_, _, fun s => rfl⟩

/-- A frame that its source's entry or its revision keeps from the blocks. -/
theorem receive_rosterOnly {s : State} {h : Header} {p : Station} (hmode : s.ctl.mode.receives = true) (hsilent : s.transmitting = false)
    (hsource : stationOf h.source = some p) (hother : p ≠ s.ctl.ownId) (hkept : h.major ≠ 2 ∨ (s.peer p).state = .incompatible)
    (blocks : Station → State → State) : s.receive h .other blocks = heardFrom h p s := by
  rw [State.receive_deliver hmode hsilent hsource hother, State.deliver]
  simp only [State.takeRoster_other]
  refine if_neg ?_
  rintro ⟨hmajor, hstate⟩
  rw [heardFrom_peer_state] at hstate
  exact hkept.elim (fun h => h hmajor) hstate

theorem receive_noBlocks {s : State} {h : Header} {p : Station} (hmode : s.ctl.mode.receives = true) (hsilent : s.transmitting = false)
    (hsource : stationOf h.source = some p) (hother : p ≠ s.ctl.ownId) : s.receive h .other (fun _ s => s) = heardFrom h p s := by
  rw [State.receive_deliver hmode hsilent hsource hother, State.deliver]
  simp only [State.takeRoster_other, ite_self]

/-- A frame of no source is counted, and goes nowhere. -/
theorem exec_noSourceFrame {source : Byte} (h : source = 0 ∨ 32 ≤ source.toNat) (s : State) :
    exec (.noSourceFrame source) s = .next (s.sense (.good source) State.countGood) :=
  if_pos (by simpa [Instr.wellFormed] using h)

/-- An ID clash in a receiving state is reported once the burst is counted. -/
theorem exec_idClashFrame {s : State} (hmode : s.ctl.mode.receives = true) (hsilent : s.transmitting = false) :
    exec .idClashFrame s =
      .next (State.clash { s with line := burstLine (BitVec.ofNat 8 s.ctl.ownId.val) s.line }) := by
  refine congrArg Host.Outcome.next ((sense_taken hmode hsilent _ _).trans ?_)
  rw [countGood_eq]

theorem clash_beforeActive {s : State} (h : s.ctl.mode = .listen ∨ s.ctl.mode = .joining) :
    s.clash = s.goDown .offline .clash .clash := by rcases h with h | h <;> simp [State.clash, h]

theorem clash_inService {s : State} (h : s.ctl.mode = .active ∨ s.ctl.mode = .leaving) :
    s.clash = s.goDown .isolated .clash .isolated := by rcases h with h | h <;> simp [State.clash, h, State.isolate]

/-- Settles O38: nothing is received in RESET or while transmitting, the burst alone is recorded in CONFIG, OFFLINE and ISOLATED, and
in the receiving states the burst is counted and goes by its source. -/
theorem burstsAndClashes : Obligations.BurstsAndClashes := by
  intro s source hsource own u
  refine ⟨fun h => ?_, fun hmode hsilent => ?_, fun hmode hsilent => ?_⟩
  · refine ⟨congrArg Host.Outcome.next (sense_nothing h _ _), congrArg Host.Outcome.next (sense_nothing h _ _), ?_, fun c hd hc => ?_⟩
    · rw [exec_noSourceFrame hsource, sense_nothing h]
    · obtain ⟨v, blocks, hexec⟩ := exec_framed hc
      rw [hexec, State.receive, sense_nothing h]
  · refine ⟨congrArg Host.Outcome.next (sense_found hmode hsilent _ _), congrArg Host.Outcome.next (sense_found hmode hsilent _ _), ?_,
      fun c hd hc => ?_⟩
    · rw [exec_noSourceFrame hsource, sense_found hmode hsilent]
      rfl
    · obtain ⟨v, blocks, hexec⟩ := exec_framed hc
      rw [hexec, State.receive, sense_found hmode hsilent]
      rfl
  · have hclash : exec .idClashFrame s = .next u.clash := exec_idClashFrame hmode hsilent
    refine ⟨?_, ?_, fun h => ?_, fun h => ?_, fun c hd p hc hp hother hkept => ?_⟩
    · refine congrArg Host.Outcome.next ((sense_taken hmode hsilent _ _).trans ?_)
      simp only [State.foundBurst, satSucc_eq]
    · rw [exec_noSourceFrame hsource, sense_taken hmode hsilent, countGood_eq]
    · rw [hclash, clash_beforeActive (by exact h)]
      exact ⟨_, rfl, State.goDown_down ..⟩
    · rw [hclash, clash_inService (by exact h)]
      exact ⟨_, rfl, State.goDown_down ..⟩
    · by_cases hunknown : ∃ code, c = .unknownKindFrame code hd
      · obtain ⟨code, rfl⟩ := hunknown
        cases hc with
        | unknown _ _ hcode =>
          have hexec : exec (.unknownKindFrame code hd) s = .next (s.receive hd .other fun _ s => s) := if_pos hcode
          rw [hexec, receive_noBlocks hmode hsilent hp hother]
      · obtain ⟨blocks, hexec⟩ := exec_carries hc
        rw [hexec, receive_rosterOnly hmode hsilent hp hother (hkept.imp_right fun h => h.resolve_right hunknown)]

/-! ### Announcements (O39) -/

/-- The announced state of a PRESENCE. -/
theorem takeRoster_announced (s : State) (h : Header) (p : Station) (profile : Profile) (a : Announced) (byJoin : Bool) :
    ({ s with line := burstLine h.source s.line } : State).announcement p h.major profile a byJoin = announcedBy h p profile a byJoin s := by
  rw [State.announcement_eq]
  rfl

/-- The blocks of an announcement take it by its revision and the entry that it leaves. -/
theorem receive_announced {s : State} {h : Header} {p : Station} (hmode : s.ctl.mode.receives = true) (hsilent : s.transmitting = false)
    (hsource : stationOf h.source = some p) (hother : p ≠ s.ctl.ownId) {v : RosterView} {heard : State}
    (hv : ({ s with line := burstLine h.source s.line } : State).takeRoster p h.major v = heard) (blocks : Station → State → State) :
    s.receive h v blocks = if h.major = 2 ∧ (heard.peer p).state ≠ .incompatible then blocks p heard else heard := by
  rw [State.receive_deliver hmode hsilent hsource hother, State.deliver]
  rw [hv]
  rfl

theorem catchUp_made {s : State} {p : Station} (hmode : s.ctl.mode = .active ∨ s.ctl.mode = .leaving) (hp : (s.peer p).state = .present) :
    s.catchUp p = { s with pub := addedAll s } := by
  rw [← addFullAll_eq]
  rcases hmode with h | h <;> simp [State.catchUp, h, isPresent_iff, hp]

theorem catchUp_none {s : State} {p : Station} (h : (s.peer p).state ≠ .present ∨ s.ctl.mode = .listen ∨ s.ctl.mode = .joining) :
    s.catchUp p = s := by
  rcases h with h | h | h
  · unfold State.catchUp
    split <;> simp [isPresent_iff, h]
  · simp [State.catchUp, h]
  · simp [State.catchUp, h]

/-- Settles O39: a PRESENCE and a JOIN at the roster, and then at the directory and the publish set. -/
theorem peersAnnounced : Obligations.PeersAnnounced := by
  intro s h p profile st owned hmode hsilent hsource hother heard joined
  have hpresence : exec (.presenceReceived h profile st owned) s = .next _ := congrArg Host.Outcome.next
    (receive_announced hmode hsilent hsource hother (v := .presence profile st) (takeRoster_announced s h p profile _ false) _)
  have hjoin : exec (.joinReceived h profile) s = .next _ := congrArg Host.Outcome.next
    (receive_announced hmode hsilent hsource hother (v := .join profile) (takeRoster_announced s h p profile .active true) _)
  have hjoined : joined.ctl = s.ctl := rfl
  refine ⟨fun hmajor hcompatible => ?_, fun h => ?_, fun hmajor hpresent hserving => ?_, fun hkept => ?_⟩
  · rw [hpresence]
    exact congrArg Host.Outcome.next (if_pos ⟨hmajor, hcompatible⟩)
  · rw [hpresence]
    refine congrArg Host.Outcome.next (if_neg ?_)
    rintro ⟨hmajor, hcompatible⟩
    exact h.elim (fun h => h hmajor) hcompatible
  · rw [hjoin, if_pos ⟨hmajor, by rw [show (joined.peer p).state = .present from hpresent]; simp⟩]
    exact congrArg Host.Outcome.next (catchUp_made hserving hpresent)
  · rw [hjoin]
    by_cases hmajor : h.major = 2 ∧ (joined.peer p).state ≠ .incompatible
    · rw [if_pos hmajor]
      exact congrArg Host.Outcome.next (catchUp_none (hkept.resolve_left fun h => h hmajor.1))
    · exact congrArg Host.Outcome.next (if_neg hmajor)

end Sys2Proof.Machine

/-! Frames with content: the conflict rule (O49), the owners followed (O47) and the UPDATEs taken (O48). -/

namespace Sys2Proof.Machine

open Sys2Proof.Safety

/-! ### The conflict rule (O49) -/

theorem ofServing_eq (r : Region) : QFrame.ofServing r = fun q => q == .handover r || q == .release r := by
  funext q
  cases q <;> simp [QFrame.ofServing, Bool.beq_eq_decide_eq]

/-- The Line Unit after the frames of a yielded region fell, queued, marked or in flight. -/
def yieldedLine (r : Region) (l : LineUnit) : LineUnit :=
  let k := fellLine (fun q => q == .handover r || q == .release r) l
  { k with
    marks := k.marks.filter fun m => m != .handover r && m != .release r
    flight := k.flight.map fun f => { f with fallen := f.fallen || f.job == .update r } }

/-- The UPDATE of the region falls before the other frames do, in the model. -/
theorem yieldedLine_eq (r : Region) (l : LineUnit) :
    (let k := LineUnit.fell (QFrame.ofServing r) { l with
      flight := l.flight.map fun f => if f.job == .update r then { f with fallen := true } else f }
    { k with marks := k.marks.filter fun m => !(m == .handover r || m == .release r) }) = yieldedLine r l := by
  rw [LineUnit.fell_eq, ofServing_eq]
  unfold yieldedLine fellLine
  simp only [Option.map_map, Bool.not_or]
  congr 2
  funext f
  obtain ⟨job, attempt, frame, fallen, wait, transmitting, stale⟩ := f
  by_cases hjob : job = .update r <;> simp [hjob]

/-- The answers handed over depend on the Line Unit and on the LEAVE frame alone. -/
theorem refused_congr {s t : State} (hctl : s.ctl = t.ctl) (hline : s.line = t.line) (r : Region) (why : RefuseReason)
    (believed : Option Station) (ps : List Station) : refused r why believed ps s = refused r why believed ps t := by
  rw [refused, refused, hctl, hline]

/-- R88, R89: the station yields a region. -/
theorem yieldRegion_eq (r : Region) (rival : Station) (seq : Option Half) (s : State) :
    s.yieldRegion r rival seq = yielded r rival (seq.getD (s.entry r).lastSeq) s := by
  rw [State.yieldRegion]
  dsimp only
  rw [State.refuseAll_refused, State.notify_eq, State.notify_eq]
  dsimp only
  rw [noticed_append]
  refine State.eq_of rfl rfl rfl rfl rfl rfl rfl rfl rfl ?_ rfl
  apply refused_congr
  · rfl
  · exact yieldedLine_eq r s.line

theorem meetRival_wins {s : State} {r : Region} {rival : Station} (seq : Option Half) (h : s.ctl.ownId < rival) :
    s.meetRival r rival seq = won r rival s := by
  rw [State.meetRival, if_pos h, State.winConflict_eq]

theorem meetRival_yields {s : State} {r : Region} {rival : Station} (seq : Option Half) (h : ¬s.ctl.ownId < rival) :
    s.meetRival r rival seq = yielded r rival (seq.getD (s.entry r).lastSeq) s := by
  rw [State.meetRival, if_neg h, yieldRegion_eq]

section
variable {s : State} {h : Header} {p : Station} {r : Region}

theorem exec_updateReceived (H : Heard s h p) (hr : regionOf h.region = some r) (offset : Byte) {length : Byte} {data : List Byte}
    (hlength : data.length = length.toNat) (hlong : data.length ≤ 143) :
    exec (.updateReceived h offset length data) s = .next ((heardFrom h p s).takeUpdate p h.seq offset data r) := by
  have hexec : exec (.updateReceived h offset length data) s = _ :=
    if_pos (Bool.or_eq_true_iff.2 (.inr (Bool.and_eq_true_iff.2 ⟨beq_iff_eq.2 hlength, decide_eq_true hlong⟩)))
  rw [hexec]
  exact congrArg Host.Outcome.next (State.receive_region H hr fun p => State.takeUpdate p h.seq offset data)

theorem exec_takeReceived (H : Heard s h p) (hr : regionOf h.region = some r) (content : Vector Byte 128) :
    exec (.takeReceived h content) s = .next ((heardFrom h p s).takeTake p h.seq content r) :=
  congrArg Host.Outcome.next (State.receive_region H hr fun p => State.takeTake p h.seq content)

theorem exec_handoverReceived (H : Heard s h p) (hr : regionOf h.region = some r) (newOwner count : Byte) (ids : Vector Byte 3)
    (content : Vector Byte 128) : exec (.handoverReceived h newOwner count ids content) s =
      .next ((heardFrom h p s).takeHandover p h.seq newOwner count ids content r) :=
  congrArg Host.Outcome.next (State.receive_region H hr fun p => State.takeHandover p h.seq newOwner count ids content)

theorem exec_releaseReceived (H : Heard s h p) (hr : regionOf h.region = some r) :
    exec (.releaseReceived h) s = .next ((heardFrom h p s).takeRelease p h.seq r) :=
  congrArg Host.Outcome.next (State.receive_region H hr fun p => State.takeRelease p h.seq)

end

section
variable {s : State} {r : Region}

/-- The span of an UPDATE lies within the region. -/
theorem takeUpdate_inside {offset length : Byte} {data : List Byte} (hlength : data.length = length.toNat) (hempty : length ≠ 0)
    (hinside : offset.toNat + length.toNat ≤ 128) (p : Station) (seq : Half) : s.takeUpdate p seq offset data r =
      if (s.entry r).role.owns = true then (s.meetRival r p (some seq)).leaveIfDone
      else if (s.entry r).owner = some p then s.updateFromOwner r seq offset.toNat data
      else s.updateFromOther r p seq offset.toNat data := by
  refine if_neg ?_
  rw [hlength]
  have : length.toNat ≠ 0 := fun h => hempty (BitVec.eq_of_toNat_eq h)
  omega

theorem takeUpdate_outside {offset length : Byte} {data : List Byte} (hlength : data.length = length.toNat)
    (h : length = 0 ∨ 128 < offset.toNat + length.toNat) (p : Station) (seq : Half) : s.takeUpdate p seq offset data r = s := by
  refine if_pos ?_
  rw [hlength]
  exact h.imp_left fun h => by rw [h]; rfl

/-- A HANDOVER that names another station than this one and the sender. -/
theorem takeHandover_other {p x : Station} {newOwner count : Byte} (hx : stationOf newOwner = some x) (hp : x ≠ p)
    (hown : x ≠ s.ctl.ownId) (hcount : count.toNat ≤ 3) (seq : Half) (ids : Vector Byte 3) (content : Vector Byte 128) :
    s.takeHandover p seq newOwner count ids content r =
      if (s.entry r).role.owns = true then (s.meetRival r x (some seq)).leaveIfDone else s.followOwner r x seq content := by
  rw [State.takeHandover, hx]
  dsimp only
  rw [if_neg (by simp [hp]; omega), if_neg hown]

end

/-- Settles O49: the rival of the frame meets the conflict rule. -/
theorem conflictsSettled : Obligations.ConflictsSettled := by
  intro s h p r H hr howns u settled
  have hsettled (rival : Station) {out : Host.Outcome State Fault Refusal}
      (hout : out = .next (u.meetRival r rival (some h.seq)).leaveIfDone) : settled rival out := by
    refine ⟨fun hlt => ?_, fun hlt => ?_⟩
    · rw [hout, meetRival_wins _ (by exact hlt)]
    · rw [hout, meetRival_yields _ (by exact lt_asymm hlt)]
      rfl
  refine ⟨fun offset length data hlength hlong hempty hinside => hsettled p ?_, fun content => hsettled p ?_,
    fun x newOwner count ids content hx hp hown hcount => hsettled x ?_⟩
  · rw [exec_updateReceived H hr offset hlength hlong, takeUpdate_inside hlength hempty hinside]
    exact congrArg Host.Outcome.next (if_pos howns)
  · rw [exec_takeReceived H hr]
    exact congrArg Host.Outcome.next (if_pos howns)
  · rw [exec_handoverReceived H hr, takeHandover_other hx hp (by exact hown) hcount]
    exact congrArg Host.Outcome.next (if_pos howns)

/-! ### The owners followed (O47) -/

/-- After a region's content is written, by the address of the byte. -/
theorem imageRead_content (m : Image) (r : Region) (content : Vector Byte 128) (h : imageWf m = true) (x : Nat) :
    imageRead (writeRegion m r content) x = if x / 128 = r.val then content.toList.getD (x % 128) 0 else imageRead m x := by
  rw [imageRead_writeRegion m r content h]
  by_cases hx : x / 128 = r.val
  · have hlow : 128 * r.val ≤ x ∧ x < 128 * r.val + 128 := by omega
    have hoffset : x - 128 * r.val = x % 128 := by omega
    rw [if_pos hx, if_pos hlow, hoffset]
  · rw [if_neg hx, if_neg (by omega)]

/-- The state after the content and the owner of a region were followed. -/
def followed (r : Region) (x : Station) (seq : Half) (content : Vector Byte 128) (s : State) : State :=
  { s with
    image := writeRegion s.image r content
    dir := put s.dir r { s.entry r with
      owner := some x, role := .peer, replica := .valid, lastSeq := seq, staleAge := 0, repair := false } }

theorem followOwner_copy {s : State} {r : Region} {x : Station} {seq : Half} (howner : (s.entry r).owner = some x)
    (hold : newer seq (s.entry r).lastSeq = false) (content : Vector Byte 128) : s.followOwner r x seq content = s :=
  if_pos ⟨howner, hold⟩

theorem followOwner_followed {s : State} {r : Region} {x : Station} {seq : Half}
    (h : (s.entry r).owner ≠ some x ∨ newer seq (s.entry r).lastSeq = true) (content : Vector Byte 128) :
    s.followOwner r x seq content = normalizedClaim r (followed r x seq content s) := by
  have hnot : ¬((s.entry r).owner = some x ∧ newer seq (s.entry r).lastSeq = false) := by
    rintro ⟨howner, hold⟩
    rw [hold] at h
    exact h.elim (fun h => h howner) (by simp)
  rw [State.followOwner, if_neg hnot, State.toNormalClaim_eq]
  rfl

theorem takeRelease_owner {s : State} {r : Region} {p : Station} (hrole : (s.entry r).role = .peer) (howner : (s.entry r).owner = some p)
    (seq : Half) : s.takeRelease p seq r = orphanedClaim r { s with
      dir := put s.dir r { orphanEntry (s.entry r) with lastSeq := seq } } := by
  rw [State.takeRelease, if_pos ⟨hrole, howner⟩, State.toOrphanClaim_eq]
  rfl

theorem takeRelease_other {s : State} {r : Region} {p : Station} (h : (s.entry r).role ≠ .peer ∨ (s.entry r).owner ≠ some p) (seq : Half) :
    s.takeRelease p seq r = s := by
  refine if_neg ?_
  rintro ⟨hrole, howner⟩
  exact h.elim (fun h => h hrole) fun h => h howner

/-- Settles O47: a HANDOVER to another station, a TAKE and a RELEASE at a region that this station does not own. -/
theorem ownersFollowed : Obligations.OwnersFollowed := by
  intro s h p r newOwner count ids content H hr himage u follows
  have hfollows (x : Station) {out : Host.Outcome State Fault Refusal}
      (hout : out = .next (u.followOwner r x h.seq content)) : follows x out := by
    refine ⟨fun howner hold => ?_, fun hnew => ⟨followed r x h.seq content u, ?_, ?_, rfl, ?_⟩⟩
    · rw [hout, followOwner_copy (by exact howner) (by exact hold)]
    · exact imageRead_content s.image r content himage
    · exact imageWf_writeRegion s.image r content himage
    · rw [hout, followOwner_followed (by exact hnew)]
  refine ⟨fun x howns hx hp hown hcount => hfollows x ?_, fun howns => hfollows p ?_, fun hrole howner => ?_, fun hother => ?_⟩
  · rw [exec_handoverReceived H hr, takeHandover_other hx hp (by exact hown) hcount]
    exact congrArg Host.Outcome.next (if_neg (by simp [howns]))
  · rw [exec_takeReceived H hr]
    exact congrArg Host.Outcome.next (if_neg (by simp [howns]))
  · rw [exec_releaseReceived H hr, takeRelease_owner (by exact hrole) (by exact howner)]
    rfl
  · rw [exec_releaseReceived H hr, takeRelease_other (by exact hother)]

/-! ### The UPDATEs taken (O48) -/

/-- The image after an UPDATE's bytes were written, and its form. -/
theorem imageRead_span {m : Image} (hm : imageWf m = true) (r : Region) {offset : Nat} {data : List Byte}
    (hinside : offset + data.length ≤ 128) : imageWf (imageWriteBytes m (byteAddress r offset) data) = true ∧
      ∀ x, imageRead (imageWriteBytes m (byteAddress r offset) data) x =
        if 128 * r.val + offset ≤ x ∧ x < 128 * r.val + offset + data.length then data.getD (x - (128 * r.val + offset)) 0
        else imageRead m x := by
  have hr := r.isLt
  have haddress : byteAddress r offset + data.length ≤ 16384 := by unfold byteAddress; omega
  exact ⟨imageWf_imageWriteBytes data m _ haddress hm, fun x => imageRead_imageWriteBytes data m _ x haddress hm⟩

section
variable {s : State} {r : Region} {seq : Half} {offset : Nat} {data : List Byte}

theorem updateFromOwner_old (h : classify seq (s.entry r).lastSeq = .same ∨ classify seq (s.entry r).lastSeq = .older) :
    s.updateFromOwner r seq offset data = s := by
  rcases h with h | h <;> rw [State.updateFromOwner, h]

/-- The entry of a region whose replica became VALID, with the sequence of a frame. -/
def validEntry (seq : Half) (e : DirEntry) : DirEntry := { e with replica := .valid, staleAge := 0, repair := false, lastSeq := seq }

theorem updateFromOwner_whole (h : classify seq (s.entry r).lastSeq = .next ∨ classify seq (s.entry r).lastSeq = .gap)
    (hwhole : data.length = 128) : s.updateFromOwner r seq offset data = { s with
      image := imageWriteBytes s.image (byteAddress r offset) data, dir := put s.dir r (validEntry seq (s.entry r)) } := by
  have hmark : ((s.setEntry r { s.entry r with lastSeq := seq }).writeSpan r offset data).markValid r = { s with
      image := imageWriteBytes s.image (byteAddress r offset) data, dir := put s.dir r (validEntry seq (s.entry r)) } := by
    refine State.eq_of rfl rfl ?_ rfl rfl rfl rfl rfl rfl rfl rfl
    simp [State.markValid, State.writeSpan, State.setEntry, State.entry, DirEntry.makeValid, validEntry]
  rcases h with h | h <;>
  · rw [State.updateFromOwner, h]
    exact (if_pos hwhole).trans hmark

theorem updateFromOwner_next (h : classify seq (s.entry r).lastSeq = .next) (hpart : data.length ≠ 128) :
    s.updateFromOwner r seq offset data = { s with
      image := imageWriteBytes s.image (byteAddress r offset) data, dir := put s.dir r { s.entry r with lastSeq := seq } } := by
  rw [State.updateFromOwner, h]
  exact if_neg hpart

/-- A replica marked STALE once its sequence and its owner were set. -/
theorem markStale_set (s : State) (r : Region) (e : DirEntry) (m : Image) (why : StaleDetail) :
    State.markStale r why { s with image := m, dir := put s.dir r e } = { s with
      image := m, dir := put s.dir r (staleEntry e)
      cmd := noticed (if e.replica = .valid then [.regionStale r e.owner why] else []) s.ctl.ticks s.cmd } := by
  rw [State.markStale_eq]
  have hentry : State.entry { s with image := m, dir := put s.dir r e } r = e := pick_put_same _ _ _
  rw [hentry, put_put]

theorem staleEntry_lastSeq (e : DirEntry) (seq : Half) : staleEntry { e with lastSeq := seq } = { staleEntry e with lastSeq := seq } := by
  unfold staleEntry
  split <;> rfl

theorem updateFromOwner_gap (h : classify seq (s.entry r).lastSeq = .gap) (hpart : data.length ≠ 128) :
    s.updateFromOwner r seq offset data = { s with
      image := imageWriteBytes s.image (byteAddress r offset) data
      dir := put s.dir r { staleEntry (s.entry r) with lastSeq := seq }
      cmd := noticed (if (s.entry r).replica = .valid then [.regionStale r (s.entry r).owner .gap] else []) s.ctl.ticks s.cmd } := by
  rw [State.updateFromOwner, h, ← staleEntry_lastSeq]
  exact (if_neg hpart).trans (markStale_set s r _ _ _)

theorem updateFromOwner_image (h : classify seq (s.entry r).lastSeq = .next ∨ classify seq (s.entry r).lastSeq = .gap) :
    (s.updateFromOwner r seq offset data).image = imageWriteBytes s.image (byteAddress r offset) data := by
  by_cases hwhole : data.length = 128
  · rw [updateFromOwner_whole h hwhole]
  · rcases h with h | h
    · rw [updateFromOwner_next h hwhole]
    · rw [updateFromOwner_gap h hwhole]

theorem updateFromOther_whole {p : Station} (hwhole : data.length = 128) :
    s.updateFromOther r p seq offset data = normalizedClaim r { s with
      image := imageWriteBytes s.image (byteAddress r offset) data
      dir := put s.dir r { validEntry seq (s.entry r) with owner := some p, role := .peer } } := by
  rw [State.updateFromOther, ← State.toNormalClaim_eq]
  dsimp only
  rw [if_pos hwhole]
  refine congrArg (State.toNormalClaim r) (State.eq_of rfl rfl ?_ rfl rfl rfl rfl rfl rfl rfl rfl)
  simp [State.markValid, State.writeSpan, State.setEntry, State.entry, DirEntry.makeValid, validEntry]

theorem updateFromOther_part {p : Station} (hpart : data.length ≠ 128) :
    s.updateFromOther r p seq offset data = normalizedClaim r { s with
      image := imageWriteBytes s.image (byteAddress r offset) data
      dir := put s.dir r { staleEntry (s.entry r) with lastSeq := seq, owner := some p, role := .peer }
      cmd := noticed (if (s.entry r).replica = .valid then [.regionStale r (some p) .ownerChange] else []) s.ctl.ticks s.cmd } := by
  have hentry : staleEntry { s.entry r with owner := some p, role := .peer, lastSeq := seq } =
      { staleEntry (s.entry r) with lastSeq := seq, owner := some p, role := .peer } := by
    unfold staleEntry
    split <;> rfl
  rw [State.updateFromOther, ← State.toNormalClaim_eq, ← hentry]
  dsimp only
  rw [if_neg hpart]
  exact congrArg (State.toNormalClaim r) (markStale_set s r _ _ _)

end

/-- Settles O48: an UPDATE of the owner by its class, and one of another station. -/
theorem updatesTaken : Obligations.UpdatesTaken := by
  intro s h p r offset length data H hr hlength hlong howns himage u update written e valid stale notices
  have hexec : update = .next (u.takeUpdate p h.seq offset data r) := exec_updateReceived H hr offset hlength hlong
  refine ⟨fun hout => hexec.trans (congrArg Host.Outcome.next (takeUpdate_outside hlength hout p h.seq)), fun hempty hinside => ?_⟩
  have hwritten (t : State) (ht : t.image = imageWriteBytes s.image (byteAddress r offset.toNat) data) : written t := by
    have hspan := imageRead_span himage r (offset := offset.toNat) (data := data) (hlength ▸ hinside)
    rw [← ht, hlength] at hspan
    exact hspan
  have hwhole : length = 128 ↔ data.length = 128 := by
    rw [hlength]
    exact ⟨fun h => h ▸ rfl, fun h => BitVec.eq_of_toNat_eq h⟩
  have hinside' := takeUpdate_inside (s := u) (r := r) hlength hempty hinside p h.seq
  rw [if_neg (show ¬(u.entry r).role.owns = true from by rw [show (u.entry r).role.owns = false from howns]; simp)] at hinside'
  rw [hinside'] at hexec
  refine ⟨fun howner => ?_, fun howner => ?_⟩
  · rw [if_pos (by exact howner)] at hexec
    refine ⟨fun hold => hexec.trans (congrArg Host.Outcome.next (updateFromOwner_old (by exact hold))), fun hnew => ?_⟩
    refine ⟨_, hexec, hwritten _ ?_, fun h128 => ?_, fun h128 hnext => ?_, fun h128 hgap => ?_⟩
    · exact updateFromOwner_image (by exact hnew)
    · rw [updateFromOwner_whole (by exact hnew) (hwhole.1 h128)]
      rfl
    · rw [updateFromOwner_next (by exact hnext) (mt hwhole.2 h128)]
      rfl
    · rw [updateFromOwner_gap (by exact hgap) (mt hwhole.2 h128), show (u.entry r).owner = some p from howner]
      rfl
  · rw [if_neg (by exact howner)] at hexec
    by_cases h128 : length = 128
    · rw [updateFromOther_whole (hwhole.1 h128)] at hexec
      exact ⟨_, hexec, hwritten _ rfl, fun _ => rfl, fun h => absurd h128 h⟩
    · rw [updateFromOther_part (mt hwhole.2 h128)] at hexec
      exact ⟨_, hexec, hwritten _ rfl, fun h => absurd h h128, fun _ => rfl⟩

end Sys2Proof.Machine

/-! A HANDOVER that names this station (O46): the seeding of the claim table, and the region gained. -/

namespace Sys2Proof.Machine

open Sys2Proof.Safety

/-! ### The claim table seeded (R68) -/

theorem answerLine_marks (q : QFrame) (l : LineUnit) : (answerLine q l).marks = l.marks := by
  unfold answerLine
  split <;> rfl

theorem replied_marks (q : QFrame) (s : State) : (replied q s).marks = s.line.marks := by
  unfold replied
  split
  · rfl
  · exact answerLine_marks q s.line

section
variable {s : State} {r : Region} {b : Byte} {q : Station}

theorem seedOne_noStation (h : stationOf b = none) : s.seedOne r b = s := by rw [State.seedOne, h]

theorem seedOne_passed (h : stationOf b = some q) (hpassed : q = s.ctl.ownId ∨ (s.peer q).state ≠ .present ∨ q ∈ s.claimants r) :
    s.seedOne r b = s := by
  rw [State.seedOne, h]
  refine if_pos (hpassed.imp_right fun hpassed => hpassed.imp_left fun habsent => ?_)
  rw [← Bool.not_eq_true, isPresent_iff]
  exact habsent

/-- A claimant that is listed, present, another station and not queued yet. -/
theorem seedOne_listed (h : stationOf b = some q) (hown : q ≠ s.ctl.ownId) (hpresent : (s.peer q).state = .present)
    (hnew : q ∉ s.claimants r) : s.seedOne r b =
      if s.claims.table.length < 16 then s.appendClaimant r q
      else match s.ctl.mode with
        | .active | .leaving => { s with line := replied (.refuse r q .queueFull (some s.ctl.ownId)) s }
        | .reset | .config | .listen | .joining | .offline | .isolated => s := by
  rw [State.seedOne, h, ← State.answer_replied]
  refine if_neg ?_
  rintro (hq | habsent | hknown)
  · exact hown hq
  · rw [(isPresent_iff s q).2 hpresent] at habsent
    cases habsent
  · exact hnew hknown

end

/-- Seeding changes the claim table and the Line Unit alone, and no mark of it. -/
structure Seeded (s t : State) : Prop where
  marks : t.line.marks = s.line.marks
  frame : { t with line := s.line, claims := { t.claims with table := s.claims.table } } = s

theorem seeded_refl (s : State) : Seeded s s := ⟨rfl, rfl⟩

theorem Seeded.trans {s t u : State} (h1 : Seeded s t) (h2 : Seeded t u) : Seeded s u := by
  refine ⟨h2.marks.trans h1.marks, ?_⟩
  have hframe := congrArg (fun v : State => { v with line := s.line, claims := { v.claims with table := s.claims.table } }) h2.frame
  exact hframe.trans h1.frame

theorem seedOne_seeded (s : State) (r : Region) (b : Byte) : Seeded s (s.seedOne r b) := by
  unfold State.seedOne
  split
  · exact seeded_refl s
  · split
    · exact seeded_refl s
    · split
      · exact ⟨rfl, rfl⟩
      · split
        · rw [State.answer_replied]; exact ⟨replied_marks _ s, rfl⟩
        · rw [State.answer_replied]; exact ⟨replied_marks _ s, rfl⟩
        all_goals exact seeded_refl s

theorem seed_seeded (s : State) (r : Region) (ids : List Byte) : Seeded s (s.seed r ids) := by
  induction ids generalizing s with
  | nil => exact seeded_refl s
  | cons b ids ih => exact (seedOne_seeded s r b).trans (ih (s.seedOne r b))

theorem Seeded.liveRecord {s t : State} (h : Seeded s t) (r : Region) : t.liveRecord r = s.liveRecord r := by
  have hrecords : t.claims.records = s.claims.records := (congrArg (fun v : State => v.claims.records) h.frame :)
  exact State.liveRecord_congr hrecords h.marks r

/-! ### The region gained (R17, R51, R52) -/

section
variable {s : State} {p : Station} {r : Region} {newOwner count : Byte} {seq : Half} {ids : Vector Byte 3} {content : Vector Byte 128}

theorem takeHandover_ignored (h : stationOf newOwner = none ∨ stationOf newOwner = some p ∨ 3 < count.toNat) :
    s.takeHandover p seq newOwner count ids content r = s := by
  unfold State.takeHandover
  split
  · rfl
  · next x hx => exact if_pos (by simpa [hx] using h)

theorem takeHandover_own (hown : stationOf newOwner = some s.ctl.ownId) (hother : p ≠ s.ctl.ownId) (hcount : count.toNat ≤ 3) :
    s.takeHandover p seq newOwner count ids content r =
      if (s.entry r).role.owns = true then
        (if newer seq (s.entry r).lastSeq = true then { s with pub := added r s } else s)
      else (s.gainRegion r p seq (ids.toList.take count.toNat) content).leaveIfDone := by
  rw [State.takeHandover, hown]
  dsimp only
  rw [if_neg (by simp [Ne.symm hother]; omega), if_pos rfl, State.addFull_added]

end

/-- The state after the content of a HANDOVER was written and the tenure of this station started. -/
def gained (r : Region) (seq : Half) (content : Vector Byte 128) (s : State) : State :=
  State.startTenure r seq { s with image := writeRegion s.image r content }

/-- The claim of a region gained ended, with its notice. -/
def grantFreed (r : Region) (n : Notice) (s : State) : State :=
  { s with
    claims := { s.claims with records := put s.claims.records r none }
    line := endedLine r s.line, cmd := noticed [n] s.ctl.ticks s.cmd }

theorem freeRecord_notify (r : Region) (n : Notice) (s : State) : (s.freeRecord r).notify n = grantFreed r n s := by
  rw [State.freeRecord_eq, State.notify_eq]
  rfl

theorem gainRegion_unsought {s : State} {r : Region} {ids : List Byte} {seq : Half} {content : Vector Byte 128}
    (hnone : s.liveRecord r = none) (p : Station) : s.gainRegion r p seq ids content =
      State.goOn r (grantFreed r (.unsoughtHandover r p) ((gained r seq content s).seed r ids)) := by
  have hlive : ((gained r seq content s).seed r ids).liveRecord r = none := ((seed_seeded _ r ids).liveRecord r).trans hnone
  rw [← freeRecord_notify]
  refine congrArg (State.goOn r) ?_
  exact (show State.grantByHandover r p ((gained r seq content s).seed r ids) = _ by rw [State.grantByHandover, hlive])

theorem gainRegion_granted {s : State} {r : Region} {ids : List Byte} {seq : Half} {content : Vector Byte 128} {c : ClaimRecord}
    (hc : s.liveRecord r = some c) (p : Station) : s.gainRegion r p seq ids content =
      State.goOn r (State.applyParked r (grantFreed r (.grantedHandover r p c.origin) ((gained r seq content s).seed r ids))) := by
  have hlive : ((gained r seq content s).seed r ids).liveRecord r = some c := ((seed_seeded _ r ids).liveRecord r).trans hc
  rw [← freeRecord_notify]
  refine congrArg (State.goOn r) ?_
  exact (show State.grantByHandover r p ((gained r seq content s).seed r ids) = _ by rw [State.grantByHandover, hlive])

/-- Settles O46: a HANDOVER that names this station, at an owner and elsewhere, and the seeding of its list. -/
theorem handoverGained : Obligations.HandoverGained := by
  intro s h p r newOwner count ids content H hr u handover
  have hexec : handover = .next (u.takeHandover p h.seq newOwner count ids content r) := exec_handoverReceived H hr ..
  refine ⟨fun hnot => hexec.trans (congrArg Host.Outcome.next (takeHandover_ignored hnot)), fun hown hcount => ?_, fun v => ⟨rfl, fun _ _ => rfl,
    fun b => ⟨seedOne_noStation, fun q hq => ⟨seedOne_passed hq, fun hother hpresent hnew => ?_⟩⟩⟩⟩
  · rw [takeHandover_own (s := u) hown H.other hcount] at hexec
    refine ⟨fun howns hnewer => ?_, fun howns hold => ?_, fun howns himage hlanes => ?_⟩
    · rw [hexec, if_pos (by exact howns)]
      exact congrArg Host.Outcome.next (if_pos hnewer)
    · rw [hexec, if_pos (by exact howns)]
      exact congrArg Host.Outcome.next (if_neg (ne_true_of_eq_false (by exact hold)))
    · rw [if_neg (show ¬(u.entry r).role.owns = true by rw [show (u.entry r).role.owns = false from howns]; simp)] at hexec
      refine ⟨gained r h.seq content u, imageRead_content s.image r content himage, rfl, ?_⟩
      intro w freed
      have hw : Seeded (gained r h.seq content u) w := seed_seeded ..
      have hfreed (n : Notice) : grantFreed r n w = freed n := by
        have hctl : w.ctl = s.ctl := (congrArg State.ctl hw.frame :)
        have hcmd : w.cmd = s.cmd := (congrArg State.cmd hw.frame :)
        rw [grantFreed, hcmd, show w.ctl.ticks = s.ctl.ticks from congrArg Controller.ticks hctl]
      have hwf : imageWf w.image = true := by
        rw [show w.image = writeRegion s.image r content from (congrArg State.image hw.frame :)]
        exact imageWf_writeRegion s.image r content himage
      have hwlanes : ∀ x, x ∈ w.parkedFor r → x.lanes ≠ 0 := by
        rw [State.parkedFor, show w.parked = s.parked from (congrArg State.parked hw.frame :)]
        exact hlanes
      refine ⟨fun hnone => ?_, fun c hc => ⟨_, (State.applyParked_applied r (freed (.grantedHandover r p c.origin)) hwf hwlanes).1, ?_⟩⟩
      · rw [hexec, gainRegion_unsought (by exact hnone), ← hfreed]
      · rw [hexec, gainRegion_granted (by exact hc), ← hfreed]
  · have hseed : v.seed r [b] = _ := seedOne_listed hq hother hpresent hnew
    refine ⟨fun hroom => hseed.trans (if_pos hroom), fun hfull hmode => ?_, fun hfull hmode => ?_⟩
    · rw [hseed, if_neg (by omega)]
      rcases hmode with h | h <;> rw [h]
    · rw [hseed, if_neg (by omega)]
      rcases hmode with h | h <;> rw [h]

end Sys2Proof.Machine

/-! The bytes and the bits of a frame, read back (O55). -/

namespace Sys2Proof.Machine

open Sys2Proof.Safety

/-! ### Bits and bytes (R172) -/

/-- A bit of a word put together by parts. -/
theorem getLsbD_foldl_or {w : Nat} (f : Nat → BitVec w) (l : List Nat) (a : BitVec w) (k : Nat) :
    (l.foldl (fun b i => b ||| f i) a).getLsbD k = (a.getLsbD k || l.any fun i => (f i).getLsbD k) := by
  induction l generalizing a with
  | nil => simp
  | cons i l ih => simp [ih, Bool.or_assoc]

/-- A byte put together from its bits. -/
theorem byte_of_bits (b : Byte) (bit : Nat → Bool) (h : ∀ i, i < 8 → bit i = b.getLsbD i) :
    (List.range 8).foldl (fun a i => if bit i then a ||| BitVec.twoPow 8 i else a) (0 : Byte) = b := by
  have hfold : (fun (a : Byte) i => if bit i then a ||| BitVec.twoPow 8 i else a) =
      fun a i => a ||| if bit i then BitVec.twoPow 8 i else 0 := by
    funext a i
    split <;> simp
  rw [hfold]
  refine BitVec.eq_of_getLsbD_eq fun k hk => ?_
  rw [getLsbD_foldl_or, Bool.eq_iff_iff]
  simp only [BitVec.ofNat_eq_ofNat, BitVec.getLsbD_zero, Bool.false_or, List.any_eq_true, List.mem_range]
  constructor
  · rintro ⟨i, hi, hbit⟩
    split at hbit
    · next hset =>
      obtain rfl : k = i := by simpa [BitVec.getLsbD_twoPow, hk] using hbit
      exact (h k hk).symm.trans hset
    · simp at hbit
  · intro hbit
    refine ⟨k, hk, ?_⟩
    rw [if_pos ((h k hk).trans hbit)]
    simp [hk]

theorem lineBits_length (bs : List Byte) : (lineBits bs).length = 8 * bs.length := by
  induction bs with
  | nil => rfl
  | cons b bs ih =>
    have hcons : lineBits (b :: bs) = (List.range 8).map b.getLsbD ++ lineBits bs := rfl
    rw [hcons, List.length_append, ih]
    simp
    omega

theorem lineBits_getD (bs : List Byte) {j i : Nat} (hi : i < 8) :
    (lineBits bs).getD (8 * j + i) false = (bs.getD j 0).getLsbD i := by
  induction bs generalizing j with
  | nil => simp [lineBits]
  | cons b bs ih =>
    have hcons : lineBits (b :: bs) = (List.range 8).map b.getLsbD ++ lineBits bs := rfl
    cases j with
    | zero =>
      rw [hcons, List.getD_append _ _ _ _ (by simpa using hi)]
      simp [hi]
    | succ j =>
      rw [hcons, List.getD_append_right _ _ _ _ (by simp; omega), List.getD_cons_succ, ← ih]
      congr 1
      simp
      omega

/-- The bits of bytes spell the bytes. -/
theorem burstBytes_lineBits (bs : List Byte) : burstBytes (lineBits bs) = some bs := by
  rw [burstBytes, lineBits_length, if_pos (by omega), Nat.mul_div_cancel_left _ (by omega)]
  refine congrArg some (List.ext_getElem (by simp) fun j h1 h2 => ?_)
  rw [List.getElem_map, List.getElem_range]
  refine byte_of_bits _ _ fun i hi => ?_
  rw [lineBits_getD bs hi, List.getD_eq_getElem _ _ h2]

/-! ### The fields of a payload -/

theorem takeBytes_toList {n : Nat} (v : Vector Byte n) (rest : List Byte) : takeBytes n (v.toList ++ rest) = v := by
  refine Vector.ext fun i hi => ?_
  rw [takeBytes, Vector.getElem_ofFn, List.getD_append _ _ _ _ (by simpa using hi)]
  simp [hi]

/-- The owned list from its sixteen bytes. -/
theorem ownedOf_ownedBytes (owned : BitVec 128) : ownedOf (ownedBytes owned) = owned := by
  refine BitVec.eq_of_getLsbD_eq fun k hk => ?_
  rw [ownedOf, getLsbD_foldl_or, Bool.eq_iff_iff]
  simp only [BitVec.ofNat_eq_ofNat, BitVec.getLsbD_zero, Bool.false_or, List.any_eq_true, List.mem_range, ownedBytes]
  constructor
  · rintro ⟨j, hj, hbit⟩
    obtain ⟨hlow, -, hset⟩ : 8 * j ≤ k ∧ k - 8 * j < 8 ∧ owned.getLsbD (8 * j + (k - 8 * j)) = true := by simpa [hj, hk] using hbit
    rwa [Nat.add_sub_cancel' hlow] at hset
  · intro hbit
    refine ⟨k / 8, by omega, ?_⟩
    have hj : k / 8 < 16 := by omega
    have hlow : 8 * (k / 8) ≤ k := by omega
    have hset : 8 * (k / 8) ≤ k ∧ k - 8 * (k / 8) < 8 ∧ owned.getLsbD (8 * (k / 8) + (k - 8 * (k / 8))) = true :=
      ⟨hlow, by omega, by rwa [Nat.add_sub_cancel' hlow]⟩
    simpa [hj, hk] using hset

/-! ### The burst of a frame -/

theorem highByte_lowByte (c : Half) : highByte c ++ lowByte c = c := BitVec.extractLsb'_append_extractLsb' (w := 8) (len := 8)

theorem headerByte_code (code major : BitVec 4) : (code ++ major : Byte).extractLsb' 4 4 = code := by
  refine BitVec.eq_of_getLsbD_eq fun k hk => ?_
  have hbit : (code ++ major : Byte).getLsbD (4 + k) = code.getLsbD k :=
    (BitVec.getLsbD_append (x := code) (y := major)).trans (by simp)
  rw [BitVec.getLsbD_extractLsb', hbit]
  simp [hk]

theorem headerByte_major (code major : BitVec 4) : (code ++ major : Byte).extractLsb' 0 4 = major := by
  refine BitVec.eq_of_getLsbD_eq fun k hk => ?_
  have hbit : (code ++ major : Byte).getLsbD (0 + k) = major.getLsbD k :=
    (BitVec.getLsbD_append (x := code) (y := major)).trans (by simp [hk])
  rw [BitVec.getLsbD_extractLsb', hbit]
  simp [hk]

/-- A burst with its right check, by its length and its source. -/
theorem burstCommand_checked (own : Station) (code : BitVec 4) (h : Header) (payload : List Byte) {c : Half}
    (hc : frameCheck (headerBytes code h ++ payload) = c) :
    burstCommand own (startPattern ++ (headerBytes code h ++ payload ++ [highByte c, lowByte c])) =
      if lengthAgrees h.major code ((payload ++ [highByte c, lowByte c]).getD 1 0) (payload.length + 7) = true then
        match stationOf h.source with
        | some p => if p = own then .idClashFrame else kindCommand code h payload
        | none => .noSourceFrame h.source
      else .badBurst := by
  generalize hbytes : headerBytes code h ++ payload ++ [highByte c, lowByte c] = bytes
  have hlength : bytes.length = payload.length + 7 := by rw [← hbytes]; simp [headerBytes]
  have hbody : bytes.take (bytes.length - 2) = headerBytes code h ++ payload := by
    rw [hlength, ← hbytes]
    exact List.take_left' (by simp [headerBytes])
  have hhigh : bytes.getD (bytes.length - 2) 0 = highByte c := by
    rw [hlength, ← hbytes, List.getD_append_right _ _ _ _ (by simp [headerBytes])]
    simp [headerBytes]
  have hlow : bytes.getD (bytes.length - 1) 0 = lowByte c := by
    rw [hlength, ← hbytes, List.getD_append_right _ _ _ _ (by simp [headerBytes])]
    simp [headerBytes]
  have hfields : bytes = (code ++ h.major) :: h.source :: h.region :: highByte h.seq :: lowByte h.seq ::
      (payload ++ [highByte c, lowByte c]) := hbytes.symm
  unfold burstCommand
  rw [if_pos (by rfl), show (startPattern ++ bytes).drop 2 = bytes from rfl]
  dsimp only
  rw [hbody, hhigh, hlow, highByte_lowByte, hc, hlength, hfields]
  simp only [List.getD_cons_zero, List.getD_cons_succ, headerByte_code, headerByte_major, highByte_lowByte, beq_self_eq_true, Bool.and_true]
  rfl

/-- The length that the kind of a payload gives its frame. -/
theorem lengthAgrees_payload (x : Payload) (hupdate : ∀ o l data, x = .update o l data → data.length = l.toNat ∧ data.length ≤ 143)
    (c d : Byte) : lengthAgrees 2 x.kind.code ((x.bytes ++ [c, d]).getD 1 0) (x.bytes.length + 7) = true := by
  have hlength : kindLength x.kind.code ((x.bytes ++ [c, d]).getD 1 0) = some (x.bytes.length + 7) ∧ x.bytes.length + 7 ≤ 152 := by
    cases x with
    | update o l data =>
      obtain ⟨hl, hlong⟩ := hupdate o l data rfl
      simp [kindLength, Payload.kind, FrameKind.code, Payload.bytes]
      omega
    | presence profile st owned => simp [kindLength, Payload.kind, FrameKind.code, Payload.bytes, profileBytes, ownedBytes]
    | join => simp [kindLength, Payload.kind, FrameKind.code, Payload.bytes, profileBytes]
    | handover | take | wait | refuse => simp [kindLength, Payload.kind, FrameKind.code, Payload.bytes]
    | leave | claim | withdraw | release | repair => simp [kindLength, Payload.kind, FrameKind.code, Payload.bytes]
  obtain ⟨hlength, hlong⟩ := hlength
  rw [lengthAgrees, hlength]
  simp
  omega

/-- The payload of each kind is read back. -/
theorem kindCommand_payload (f : Frame) : kindCommand f.payload.kind.code f.header f.payload.bytes = f.heard := by
  obtain ⟨h, payload⟩ := f
  cases payload with
  | presence profile st owned => exact congrArg (Instr.presenceReceived h profile st) (ownedOf_ownedBytes owned)
  | join | leave | claim | wait | refuse | withdraw | release | update | repair => rfl
  | handover n k ids content =>
    have hids := takeBytes_toList ids content.toList
    have hcontent := takeBytes_toList content []
    have hdrop : ([n, k] ++ ids.toList ++ content.toList).drop 5 = content.toList ++ [] := by
      rw [List.append_nil]
      exact List.drop_left' (by simp)
    rw [← hdrop] at hcontent
    exact congrArg₂ (Instr.handoverReceived h n k) hids hcontent
  | take content =>
    have hcontent := takeBytes_toList content []
    rw [List.append_nil] at hcontent
    exact congrArg (Instr.takeReceived h) hcontent

/-- Settles O55: the bits of a burst are its bytes, and the fields of the bytes those of the frame. -/
theorem burstsSpellTheirFrames : Obligations.BurstsSpellTheirFrames := by
  intro f own p hmajor hsource hupdate
  have hburst : bitsCommand own (lineBits f.burst) =
      if p = own then .idClashFrame else f.heard := by
    rw [bitsCommand, burstBytes_lineBits]
    dsimp only
    rw [Frame.burst, Frame.bytes, burstCommand_checked own _ f.header _ rfl, hmajor, if_pos (lengthAgrees_payload _ hupdate _ _), hsource, kindCommand_payload]
  exact ⟨fun hp => hburst.trans (if_neg hp), fun hp => hburst.trans (if_pos hp)⟩

end Sys2Proof.Machine

/-! Presence reconciliation (O40): what one region does, and the fold over all regions. -/

namespace Sys2Proof.Machine

open Sys2Proof.Safety

/-! ### A claim that goes on (R75, R78) -/

/-- The record of a region after its live record, if there is one, was changed. -/
def goesOn (f : ClaimRecord → ClaimRecord) (s : State) (r : Region) : Option ClaimRecord :=
  match s.liveRecord r with
  | some c => some (f c)
  | none => s.record r

theorem goesOn_live {f : ClaimRecord → ClaimRecord} {s : State} {r : Region} {c : ClaimRecord} (hc : s.liveRecord r = some c) :
    goesOn f s r = some (f c) := by rw [goesOn, hc]

theorem goesOn_none {f : ClaimRecord → ClaimRecord} {s : State} {r : Region} (h : s.liveRecord r = none) : goesOn f s r = s.record r := by
  rw [goesOn, h]

theorem goesOn_same {f : ClaimRecord → ClaimRecord} {s : State} {r : Region} (h : ∀ c, f c = c) : goesOn f s r = s.record r := by
  unfold goesOn
  split
  · next c hc => rw [h, State.record_of_live hc]
  · rfl

theorem goesOn_congr {f g : ClaimRecord → ClaimRecord} {s t : State} {r : Region} (hfg : ∀ c, f c = g c)
    (hlive : t.liveRecord r = s.liveRecord r) (hrecord : t.record r = s.record r) : goesOn f t r = goesOn g s r := by
  rw [goesOn, goesOn, hlive, hrecord, funext hfg]

/-- A claim of one region went on: its record changed, and no record of another region, nor which records are closing. -/
structure ClaimGoesOn (f : ClaimRecord → ClaimRecord) (r : Region) (s t : State) : Prop where
  record : ∀ q, t.record q = if q = r then goesOn f s r else s.record q
  withdraws : ∀ q, t.line.marks.any (Mark.isWithdraw q) = s.line.marks.any (Mark.isWithdraw q)
  frame : { t with line := s.line, claims := { t.claims with records := s.claims.records } } = s

theorem claimGoesOn_refl {f : ClaimRecord → ClaimRecord} {s : State} {r : Region} (h : goesOn f s r = s.record r) : ClaimGoesOn f r s s := by
  refine ⟨fun q => ?_, fun _ => rfl, rfl⟩
  split
  · next hq => rw [hq, h]
  · rfl

theorem record_recorded (s : State) (r q : Region) (c : ClaimRecord) (l : LineUnit) :
    State.record { s with claims := recorded r c s, line := l } q = if q = r then some c else s.record q := pick_put ..

theorem orphanedClaim_goesOn (r : Region) (s : State) :
    ClaimGoesOn (fun c => if c.kind = .normal then orphanClaim c else c) r s (orphanedClaim r s) := by
  unfold orphanedClaim
  split
  · next c hc =>
    split
    · next hkind =>
      refine ⟨fun q => ?_, fun q => wanted_withdraws r q s, rfl⟩
      rw [record_recorded, goesOn_live hc, if_pos hkind]
    · next hkind => exact claimGoesOn_refl (by rw [goesOn_live hc, if_neg hkind, State.record_of_live hc])
  · next hnone => exact claimGoesOn_refl (goesOn_none hnone)

theorem any_isWithdraw_filter {p : Mark → Bool} {q : Region} (h : ∀ b, p (.withdraw q b) = true) (l : List Mark) :
    (l.filter p).any (Mark.isWithdraw q) = l.any (Mark.isWithdraw q) :=
  any_isWithdraw_congr fun b => by simp [h]

theorem normalizedClaim_goesOn (r : Region) (s : State) :
    ClaimGoesOn (fun c => if c.kind = .orphan then normalClaim c else c) r s (normalizedClaim r s) := by
  unfold normalizedClaim
  split
  · next c hc =>
    split
    · next hkind =>
      refine ⟨fun q => ?_, fun q => ?_, rfl⟩
      · rw [goesOn_live hc, if_pos hkind]
        exact pick_put ..
      · exact (wanted_withdraws r q _).trans (any_isWithdraw_filter (fun b => rfl) _)
    · next hkind => exact claimGoesOn_refl (by rw [goesOn_live hc, if_neg hkind, State.record_of_live hc])
  · next hnone => exact claimGoesOn_refl (goesOn_none hnone)

theorem wanted_congr {s t : State} (hctl : t.ctl = s.ctl) (hline : t.line = s.line) (r : Region) : wanted r t = wanted r s := by
  rw [wanted, wanted, claimLine, claimLine, State.claimPending, State.claimPending, hctl, hline]

/-- The Line Unit after a claim goes on depends on the live record, the LEAVE frame and the Line Unit alone. -/
theorem orphanedClaim_line_congr {s t : State} {r : Region} (hlive : t.liveRecord r = s.liveRecord r) (hctl : t.ctl = s.ctl)
    (hline : t.line = s.line) : (orphanedClaim r t).line = (orphanedClaim r s).line := by
  rw [orphanedClaim, orphanedClaim, hlive, wanted_congr hctl hline]
  split
  · split
    · rfl
    · exact hline
  · exact hline

theorem normalizedClaim_line_congr {s t : State} {r : Region} (hlive : t.liveRecord r = s.liveRecord r) (hctl : t.ctl = s.ctl)
    (hline : t.line = s.line) : (normalizedClaim r t).line = (normalizedClaim r s).line := by
  rw [normalizedClaim, normalizedClaim, hlive]
  split
  · split
    · refine (show wanted r _ = wanted r _ from wanted_congr (by exact hctl) ?_ r)
      dsimp only
      rw [hline]
    · exact hline
  · exact hline

/-! ### One region of an owned list (R85 to R89) -/

/-- The region is yielded to the source of the list. -/
abbrev Yields (p : Station) (listed : Bool) (s : State) (r : Region) : Prop :=
  listed = true ∧ (s.entry r).role.owns = true ∧ ¬s.ctl.ownId < p

/-- The publish entry of a region after the owned list was taken. -/
def reconciledPub (p : Station) (listed : Bool) (s : State) (r : Region) : Option PubEntry :=
  if listed = true ∧ (s.entry r).role.owns = true then
    (if s.ctl.ownId < p then
      (if (s.entry r).role = .owner ∧ s.pub.barred = false then fullAddition (s.pubEntry r) else s.pubEntry r)
    else none)
  else s.pubEntry r

/-- What stands at the owner's side of a region after the owned list was taken. -/
def reconciledServing (p : Station) (listed : Bool) (s : State) (r : Region) : ServeEntry :=
  if Yields p listed s r then { s.serving r with handover := .idle, forced := false } else s.serving r

/-- One region was taken by the owned list. -/
structure RegionTaken (p : Station) (listed : Bool) (r : Region) (s t : State) : Prop where
  entry : ∀ q, t.entry q = if q = r then reconciled s.ctl.ownId p listed (s.entry r) else s.entry q
  cmd : t.cmd = noticed (reconcileNotices s.ctl.ownId p listed r (s.entry r)) s.ctl.ticks s.cmd
  record : ∀ q, t.record q = if q = r then goesOn (reconciledClaim p listed (s.entry r)) s r else s.record q
  withdraws : ∀ q, t.line.marks.any (Mark.isWithdraw q) = s.line.marks.any (Mark.isWithdraw q)
  pub : ∀ q, t.pubEntry q = if q = r then reconciledPub p listed s r else s.pubEntry q
  serving : ∀ q, t.serving q = if q = r then reconciledServing p listed s r else s.serving q
  table : t.claims.table = s.claims.table.filter fun e => !(e.region == r && decide (Yields p listed s r))
  line : t.line = reconciledLine p listed s r s.line
  frame : { t with
    dir := s.dir, pub := { t.pub with set := s.pub.set }, claims := s.claims, cmd := s.cmd, line := s.line } = s

/-- A value at one region that is as it was. -/
theorem at_same {α : Type} {f : Region → α} {r : Region} {a : α} (h : a = f r) (q : Region) : f q = if q = r then a else f q := by
  split
  · next hq => rw [hq, h]
  · rfl

theorem filter_none {r : Region} {l : List TableEntry} {P : Prop} [Decidable P] (h : ¬P) : l = l.filter fun e => !(e.region == r && decide P) := by
  simp [h]

section
variable {p : Station} {r : Region} {s : State}

/-- The region is listed by its owner, or omitted by another station than its owner. -/
theorem regionTaken_same {listed : Bool}
    (h : (listed = true ∧ (s.entry r).role.owns = false ∧ (s.entry r).owner = some p) ∨ (listed = false ∧ (s.entry r).owner ≠ some p)) :
    RegionTaken p listed r s s := by
  rcases h with ⟨rfl, howns, howner⟩ | ⟨rfl, howner⟩
  · refine ⟨at_same ?_, ?_, at_same ?_, fun _ => rfl, at_same ?_, at_same ?_, filter_none ?_, ?_, rfl⟩
    · simp [reconciled, howns, howner]
    · simp [reconcileNotices, howns, howner, noticed_nil]
    · exact goesOn_same fun c => by simp [reconciledClaim, howner]
    · simp [reconciledPub, howns]
    · simp [reconciledServing, howns]
    · simp [howns]
    · simp [reconciledLine, howns, howner]
  · refine ⟨at_same ?_, ?_, at_same ?_, fun _ => rfl, at_same ?_, at_same ?_, filter_none ?_, ?_, rfl⟩
    · simp [reconciled, howner]
    · simp [reconcileNotices, noticed_nil]
    · exact goesOn_same fun c => by simp [reconciledClaim, howner]
    · simp [reconciledPub]
    · simp [reconciledServing]
    · simp
    · simp [reconciledLine, howner]

/-- The station wins the region. -/
theorem regionTaken_won (howns : (s.entry r).role.owns = true) (hlow : s.ctl.ownId < p) : RegionTaken p true r s (won r p s) := by
  refine ⟨at_same (f := s.entry) ?_, ?_, at_same (f := s.record) ?_, fun _ => rfl, fun q => ?_, at_same (f := s.serving) ?_,
    filter_none ?_, ?_, ?_⟩
  · simp [reconciled, howns, hlow]
  · simp [reconcileNotices, howns, hlow, won]
  · exact goesOn_same fun c => by simp [reconciledClaim, howns]
  · unfold reconciledPub won added fullyAdded State.pubEntry
    by_cases hb : s.pub.barred = true
    · simp only [hb, howns, hlow, if_true]
      split <;> simp_all
    · by_cases hrole : (s.entry r).role = .owner
      · simp [hb, hlow, hrole, pick_put, Role.owns]
      · simp only [hb, howns, hlow, hrole, if_true, if_false]
        split <;> simp_all
  · simp [reconciledServing, Yields, hlow]
  · simp [Yields, hlow]
  · simp [reconciledLine, howns, hlow, won]
  · unfold won added fullyAdded
    split_ifs <;> rfl

theorem answerLine_refuseLine_marks (r : Region) (why : RefuseReason) (believed : Option Station) (ps : List Station) (l : LineUnit) :
    (refuseLine r why believed ps l).marks = l.marks := by
  unfold refuseLine
  induction ps generalizing l with
  | nil => rfl
  | cons q ps ih => exact (ih _).trans (answerLine_marks _ l)

theorem refused_marks (r : Region) (why : RefuseReason) (believed : Option Station) (ps : List Station) (s : State) :
    (refused r why believed ps s).marks = s.line.marks := by
  unfold refused
  split
  · rfl
  · exact answerLine_refuseLine_marks ..

/-- The station yields the region. -/
theorem regionTaken_yielded (howns : (s.entry r).role.owns = true) (hhigh : ¬s.ctl.ownId < p) :
    RegionTaken p true r s (yielded r p (s.entry r).lastSeq s) := by
  refine ⟨fun q => ?_, ?_, at_same (f := s.record) ?_, fun q => ?_, fun q => ?_, fun q => ?_, ?_, ?_, rfl⟩
  · simp only [reconciled, if_true, howns, hhigh, if_false]
    exact pick_put ..
  · simp [reconcileNotices, howns, hhigh, yielded]
  · exact goesOn_same fun c => by simp [reconciledClaim, howns]
  · exact (congrArg (List.any · _) (refused_marks ..)).trans (any_isWithdraw_filter (fun b => rfl) _)
  · simp only [reconciledPub, howns, hhigh, and_self, if_true, if_false]
    exact pick_put ..
  · simp only [reconciledServing, Yields, howns, hhigh, not_false_eq_true, and_self, if_true]
    exact pick_put ..
  · simp only [Yields, howns, hhigh, not_false_eq_true, and_self, decide_true, Bool.and_true]
    rfl
  · simp only [reconciledLine, howns, hhigh, if_true, if_false]

/-- A region whose entry, notices and claim alone change. -/
theorem regionTaken_of_goesOn {listed : Bool} {e : DirEntry} {ns : List Notice} {f : ClaimRecord → ClaimRecord} {t : State}
    (h : ClaimGoesOn f r { s with dir := put s.dir r e, cmd := noticed ns s.ctl.ticks s.cmd } t)
    (hother : ¬(listed = true ∧ (s.entry r).role.owns = true)) (he : e = reconciled s.ctl.ownId p listed (s.entry r))
    (hns : ns = reconcileNotices s.ctl.ownId p listed r (s.entry r)) (hf : ∀ c, f c = reconciledClaim p listed (s.entry r) c)
    (hline : t.line = reconciledLine p listed s r s.line) : RegionTaken p listed r s t := by
  obtain ⟨hrecord, hwithdraws, hframe⟩ := h
  have hpub : t.pub = s.pub := (congrArg State.pub hframe :)
  have hserve : t.claims.serve = s.claims.serve := (congrArg (fun v : State => v.claims.serve) hframe :)
  have hgoes : goesOn f { s with dir := put s.dir r e, cmd := noticed ns s.ctl.ticks s.cmd } r =
      goesOn (reconciledClaim p listed (s.entry r)) s r := goesOn_congr hf rfl rfl
  refine ⟨fun q => ?_, ?_, fun q => ?_, hwithdraws, fun q => ?_, fun q => ?_, ?_, hline, ?_⟩
  · have hdir : t.entry q = pick (put s.dir r e) q := (congrArg (fun v : State => v.entry q) hframe :)
    rw [hdir, pick_put, he]
    rfl
  · rw [← hns]
    exact (congrArg State.cmd hframe :)
  · rw [hrecord, hgoes]
    rfl
  · rw [State.pubEntry, hpub]
    exact at_same (f := s.pubEntry) (if_neg hother) q
  · rw [State.serving, hserve]
    exact at_same (f := s.serving) (if_neg fun hyields => hother ⟨hyields.1, hyields.2.1⟩) q
  · have htable : t.claims.table = s.claims.table := (congrArg (fun v : State => v.claims.table) hframe :)
    rw [htable]
    exact filter_none fun hyields => hother ⟨hyields.1, hyields.2.1⟩
  · have hframe' := congrArg (fun v : State => { v with
      dir := s.dir, pub := { v.pub with set := s.pub.set }, claims := s.claims, cmd := s.cmd, line := s.line }) hframe
    exact hframe'

/-- The source becomes the owner of a region that this station does not own. -/
theorem regionTaken_followed (howns : (s.entry r).role.owns = false) (howner : (s.entry r).owner ≠ some p) :
    RegionTaken p true r s (normalizedClaim r { s with
      dir := put s.dir r { staleEntry (s.entry r) with owner := some p, role := .peer }
      cmd := noticed (if (s.entry r).replica = .valid then [.regionStale r (some p) .reconcile] else []) s.ctl.ticks s.cmd }) := by
  refine regionTaken_of_goesOn (normalizedClaim_goesOn r _) (by simp [howns]) ?_ ?_ (fun c => ?_) ?_
  · simp [reconciled, howns, howner]
  · cases hreplica : (s.entry r).replica <;> simp [reconcileNotices, howns, howner, hreplica]
  · simp [reconciledClaim, howns, howner]
  · simp only [reconciledLine, howns, howner, if_true, if_false, Bool.false_eq_true]
    exact normalizedClaim_line_congr rfl rfl rfl

/-- A region that its owner omits is an orphan. -/
theorem regionTaken_omitted (howner : (s.entry r).owner = some p) :
    RegionTaken p false r s (orphanedClaim r { s with dir := put s.dir r (orphanEntry (s.entry r)) }) := by
  have hgoes := orphanedClaim_goesOn r { s with
    dir := put s.dir r (orphanEntry (s.entry r)), cmd := noticed [] s.ctl.ticks s.cmd }
  rw [noticed_nil] at hgoes
  have hkeep := regionTaken_of_goesOn (p := p) (listed := false) (s := s) (r := r) (ns := []) (e := orphanEntry (s.entry r))
    (t := orphanedClaim r { s with dir := put s.dir r (orphanEntry (s.entry r)) })
    (f := fun c => if c.kind = .normal then orphanClaim c else c)
  rw [noticed_nil] at hkeep
  refine hkeep hgoes (by simp) ?_ ?_ (fun c => ?_) ?_
  · simp [reconciled, howner]
  · simp [reconcileNotices]
  · simp [reconciledClaim, howner]
  · simp only [reconciledLine, howner, if_true, if_false, Bool.false_eq_true]
    exact orphanedClaim_line_congr rfl rfl rfl

end

theorem loseOwner_orphaned {s : State} {p : Station} {r : Region} (howner : (s.entry r).owner = some p) :
    s.loseOwner p r = orphanedClaim r { s with dir := put s.dir r (orphanEntry (s.entry r)) } := by
  rw [State.loseOwner, if_pos howner, State.toOrphanClaim_eq]
  rfl

theorem loseOwner_other {s : State} {p : Station} {r : Region} (howner : (s.entry r).owner ≠ some p) : s.loseOwner p r = s := if_neg howner

/-- What one region does against the owned list. -/
theorem reconcile_taken (p : Station) (owned : BitVec 128) (r : Region) (s : State) :
    RegionTaken p (owned.getLsbD r.val) r s (s.reconcile p owned r) := by
  unfold State.reconcile
  cases hlisted : owned.getLsbD r.val with
  | false =>
    rw [if_neg (by simp)]
    by_cases howner : (s.entry r).owner = some p
    · rw [loseOwner_orphaned howner]
      exact regionTaken_omitted howner
    · rw [loseOwner_other howner]
      exact regionTaken_same (.inr ⟨rfl, howner⟩)
  | true =>
    rw [if_pos rfl]
    split
    · next howns =>
      by_cases hlow : s.ctl.ownId < p
      · rw [meetRival_wins _ hlow]
        exact regionTaken_won howns hlow
      · rw [meetRival_yields _ hlow]
        exact regionTaken_yielded howns hlow
    · next howns =>
      have howns : (s.entry r).role.owns = false := by simpa using howns
      split
      · next howner => exact regionTaken_same (.inl ⟨rfl, howns, howner⟩)
      · next howner =>
        have hstale : staleEntry { s.entry r with owner := some p, role := .peer } =
            { staleEntry (s.entry r) with owner := some p, role := .peer } := by
          unfold staleEntry
          split <;> rfl
        have hmark := markStale_set s r { s.entry r with owner := some p, role := .peer } s.image .reconcile
        rw [hstale] at hmark
        rw [State.toNormalClaim_eq, State.setEntry, hmark]
        exact regionTaken_followed howns howner

/-! ### All regions -/

/-- The regions passed were taken, and the others are as they were. -/
structure ListTaken (p : Station) (owned : BitVec 128) (done : List Region) (s t : State) : Prop where
  entry : ∀ r : Region, t.entry r = if r ∈ done then reconciled s.ctl.ownId p (owned.getLsbD r.val) (s.entry r) else s.entry r
  cmd : t.cmd = noticed (done.flatMap fun r : Region =>
    reconcileNotices s.ctl.ownId p (owned.getLsbD r.val) r (s.entry r)) s.ctl.ticks s.cmd
  record : ∀ r : Region, t.record r =
    if r ∈ done then goesOn (reconciledClaim p (owned.getLsbD r.val) (s.entry r)) s r else s.record r
  withdraws : ∀ q, t.line.marks.any (Mark.isWithdraw q) = s.line.marks.any (Mark.isWithdraw q)
  pub : ∀ r : Region, t.pubEntry r = if r ∈ done then reconciledPub p (owned.getLsbD r.val) s r else s.pubEntry r
  serving : ∀ r : Region, t.serving r = if r ∈ done then reconciledServing p (owned.getLsbD r.val) s r else s.serving r
  table : t.claims.table = s.claims.table.filter fun e =>
    !(decide (e.region ∈ done) && decide (Yields p (owned.getLsbD e.region.val) s e.region))
  line : t.line = done.foldl (fun l r => reconciledLine p (owned.getLsbD r.val) s r l) s.line
  frame : { t with
    dir := s.dir, pub := { t.pub with set := s.pub.set }, claims := s.claims, cmd := s.cmd, line := s.line } = s

theorem listTaken_nil (p : Station) (owned : BitVec 128) (s : State) : ListTaken p owned [] s s :=
  ⟨fun _ => by simp, by simp [noticed_nil], fun _ => by simp, fun _ => rfl, fun _ => by simp, fun _ => by simp, by simp, rfl, rfl⟩

/-- A table of values changed at the regions passed, and then at the next one. -/
theorem at_append {α : Type} {f g x y : Region → α} {done : List Region} {r : Region} (hf : ∀ q, f q = if q ∈ done then x q else y q)
    (hg : ∀ q, g q = if q = r then x r else f q) (q : Region) : g q = if q ∈ done ++ [r] then x q else y q := by
  rw [hg, hf]
  by_cases hq : q = r
  · simp [hq]
  · simp [hq]

/-- The Line Unit after a region was taken depends on what stands at the region and on the LEAVE frame. -/
theorem reconciledLine_congr {p : Station} {listed : Bool} {s t : State} {r : Region} (hentry : t.entry r = s.entry r)
    (hctl : t.ctl = s.ctl) (hrecord : t.record r = s.record r) (hclaimants : t.claimants r = s.claimants r) (l : LineUnit) :
    reconciledLine p listed t r l = reconciledLine p listed s r l := by
  have hlive : State.liveRecord { t with line := l } r = State.liveRecord { s with line := l } r := liveRecord_of hrecord rfl
  have hnormal : (normalizedClaim r { t with line := l }).line = (normalizedClaim r { s with line := l }).line :=
    normalizedClaim_line_congr hlive hctl rfl
  have horphan : (orphanedClaim r { t with line := l }).line = (orphanedClaim r { s with line := l }).line :=
    orphanedClaim_line_congr hlive hctl rfl
  have hyielded : (yielded r p (s.entry r).lastSeq { t with line := l }).line = (yielded r p (s.entry r).lastSeq { s with line := l }).line := by
    show refused r .notOwner (some p) (t.claimants r) _ = refused r .notOwner (some p) (s.claimants r) _
    rw [hclaimants]
    exact refused_congr (by exact hctl) (by rfl) ..
  have hown : t.ctl.ownId = s.ctl.ownId := congrArg Controller.ownId hctl
  unfold reconciledLine
  dsimp only
  rw [hnormal, horphan, hentry, hyielded, hown]

/-- The queue of a region not reached yet is as it was. -/
theorem ListTaken.claimants {p : Station} {owned : BitVec 128} {done : List Region} {s t : State} (h : ListTaken p owned done s t)
    {r : Region} (hr : r ∉ done) : t.claimants r = s.claimants r := by
  rw [State.claimants, State.claimants, h.table, List.filter_filter]
  refine congrArg (List.map _) (List.filter_congr fun e _ => ?_)
  by_cases he : e.region = r
  · simp [he, hr]
  · simp [he]

theorem ListTaken.append {p : Station} {owned : BitVec 128} {done : List Region} {s t u : State} {r : Region} (hr : r ∉ done)
    (h : ListTaken p owned done s t) (hu : RegionTaken p (owned.getLsbD r.val) r t u) : ListTaken p owned (done ++ [r]) s u := by
  have hctl : t.ctl = s.ctl := (congrArg State.ctl h.frame :)
  have hbarred : t.pub.barred = s.pub.barred := (congrArg (fun v : State => v.pub.barred) h.frame :)
  have hentry : t.entry r = s.entry r := by rw [h.entry, if_neg hr]
  have hrecord : t.record r = s.record r := by rw [h.record, if_neg hr]
  have hpub : t.pubEntry r = s.pubEntry r := by rw [h.pub, if_neg hr]
  have hserving : t.serving r = s.serving r := by rw [h.serving, if_neg hr]
  have hlive : t.liveRecord r = s.liveRecord r := liveRecord_of hrecord (h.withdraws r)
  have hyields : Yields p (owned.getLsbD r.val) t r ↔ Yields p (owned.getLsbD r.val) s r := by rw [Yields, Yields, hentry, hctl]
  refine ⟨at_append h.entry fun q => ?_, ?_, at_append h.record fun q => ?_, fun q => (hu.withdraws q).trans (h.withdraws q),
    at_append h.pub fun q => ?_, at_append h.serving fun q => ?_, ?_, ?_, ?_⟩
  · rw [hu.entry, hentry, hctl]
  · rw [hu.cmd, h.cmd, hentry, hctl, noticed_append, List.flatMap_append, List.flatMap_singleton]
  · rw [hu.record, goesOn_congr (fun c => by rw [hentry]) hlive hrecord]
  · rw [hu.pub, reconciledPub, reconciledPub, hentry, hctl, hpub, hbarred]
  · rw [hu.serving, reconciledServing, reconciledServing, hserving, if_congr hyields rfl rfl]
  · rw [hu.table, h.table, List.filter_filter]
    refine List.filter_congr fun e _ => ?_
    by_cases he : e.region = r
    · simp [he, hr, hentry, hctl]
    · simp [he]
  · rw [hu.line, List.foldl_append, List.foldl_cons, List.foldl_nil, ← h.line]
    exact reconciledLine_congr hentry hctl hrecord (h.claimants hr) t.line
  · have hframe := congrArg (fun v : State => { v with
      dir := s.dir, pub := { v.pub with set := s.pub.set }, claims := s.claims, cmd := s.cmd, line := s.line }) hu.frame
    exact hframe.trans h.frame

/-- Settles O40: the regions are taken in ascending order, each by its entry and the bit of the list. -/
theorem ownedListTaken : Obligations.OwnedListTaken := by
  intro s p owned _
  refine ⟨s.forRegions (State.reconcile p owned), rfl, ?_⟩
  have h : ListTaken p owned allRegions s (s.forRegions (State.reconcile p owned)) :=
    State.forRegions_induct (P := fun done t => ListTaken p owned done s t) s (listTaken_nil p owned s)
      fun done r t hr ht => ht.append hr (reconcile_taken p owned r t)
  generalize s.forRegions (State.reconcile p owned) = t at h
  refine ⟨fun r => ?_, h.cmd, fun r c hc => ?_, fun r hnone => ?_, fun r => ?_, fun r => ?_, ?_, h.line, h.frame⟩
  · rw [h.entry, if_pos (mem_allRegions r)]
  · rw [h.record, if_pos (mem_allRegions r), goesOn_live hc]
  · rw [h.record, if_pos (mem_allRegions r), goesOn_none hnone]
  · rw [h.pub, if_pos (mem_allRegions r)]
    rfl
  · rw [h.serving, if_pos (mem_allRegions r)]
    rfl
  · rw [h.table]
    refine List.filter_congr fun e _ => ?_
    simp only [mem_allRegions, decide_true, Bool.true_and, Yields, Bool.decide_and, Bool.decide_eq_true, decide_not, Bool.and_assoc]

end Sys2Proof.Machine

/-! A peer lost (O41): its regions orphaned, its claims removed, and the records deferred to it asked again. -/

namespace Sys2Proof.Machine

open Sys2Proof.Safety

/-! ### A record deferred to the lost peer (R75) -/

/-- A record deferred to a station, become one that asks. -/
def askedAgain (p : Station) (c : ClaimRecord) : ClaimRecord :=
  if c.kind = .orphan ∧ c.state = .deferred ∧ c.deferredTo = some p then
    { c with state := .asking, orphanWait := .stopped, deferredTo := none, attempts := 0 }
  else c

theorem askedLine_live {p : Station} {r : Region} {s : State} {c : ClaimRecord} (hc : s.liveRecord r = some c) (l : LineUnit) :
    askedLine p s r l =
      if c.kind = .orphan ∧ c.state = .deferred ∧ c.deferredTo = some p then wanted r { s with line := l } else l := by
  rw [askedLine, hc]

theorem askedLine_none {p : Station} {r : Region} {s : State} (hnone : s.liveRecord r = none) (l : LineUnit) :
    askedLine p s r l = l := by
  rw [askedLine, hnone]

theorem releaseDeferred_goesOn (p : Station) (r : Region) (s : State) :
    ClaimGoesOn (askedAgain p) r s (s.releaseDeferred p r) ∧ (s.releaseDeferred p r).line = askedLine p s r s.line := by
  unfold State.releaseDeferred
  split
  · next c hc =>
    rw [askedLine_live hc]
    split
    · next h =>
      rw [State.needClaim_wanted]
      refine ⟨⟨fun q => ?_, fun q => wanted_withdraws r q _, rfl⟩, rfl⟩
      rw [goesOn_live hc, askedAgain, if_pos h]
      exact pick_put ..
    · next h => exact ⟨claimGoesOn_refl (by rw [goesOn_live hc, askedAgain, if_neg h, State.record_of_live hc]), rfl⟩
  · next hnone =>
    rw [askedLine_none hnone]
    exact ⟨claimGoesOn_refl (goesOn_none hnone), rfl⟩

theorem askedLine_congr {p : Station} {s t : State} {r : Region} (hctl : t.ctl = s.ctl)
    (hlive : t.liveRecord r = s.liveRecord r) (l : LineUnit) : askedLine p t r l = askedLine p s r l := by
  have hwanted : wanted r { t with line := l } = wanted r { s with line := l } :=
    wanted_congr (s := { s with line := l }) (t := { t with line := l }) hctl rfl r
  rw [askedLine, askedLine, hlive, hwanted]

/-- The records of the regions passed asked again. -/
structure AllAsked (p : Station) (done : List Region) (s t : State) : Prop where
  record : ∀ r, t.record r = if r ∈ done then goesOn (askedAgain p) s r else s.record r
  withdraws : ∀ q, t.line.marks.any (Mark.isWithdraw q) = s.line.marks.any (Mark.isWithdraw q)
  line : t.line = done.foldl (fun l r => askedLine p s r l) s.line
  frame : { t with line := s.line, claims := { t.claims with records := s.claims.records } } = s

theorem AllAsked.append {p : Station} {done : List Region} {s t : State} {r : Region} (hr : r ∉ done) (h : AllAsked p done s t) :
    AllAsked p (done ++ [r]) s (t.releaseDeferred p r) := by
  obtain ⟨⟨hrecord, hwithdraws, hframe⟩, hline⟩ := releaseDeferred_goesOn p r t
  have hctl : t.ctl = s.ctl := (congrArg State.ctl h.frame :)
  have hsame : t.record r = s.record r := by rw [h.record, if_neg hr]
  have hlive : t.liveRecord r = s.liveRecord r := liveRecord_of hsame (h.withdraws r)
  refine ⟨at_append h.record fun q => ?_, fun q => (hwithdraws q).trans (h.withdraws q), ?_, ?_⟩
  · rw [hrecord, goesOn_congr (fun _ => rfl) hlive hsame]
  · rw [hline, List.foldl_append, List.foldl_cons, List.foldl_nil, ← h.line, askedLine_congr hctl hlive]
  · have hframe' := congrArg (fun v : State => { v with line := s.line, claims := { v.claims with records := s.claims.records } }) hframe
    exact hframe'.trans h.frame

theorem forRegions_releaseDeferred (p : Station) (s : State) : AllAsked p allRegions s (s.forRegions (State.releaseDeferred p)) :=
  State.forRegions_induct (P := fun done t => AllAsked p done s t) s ⟨fun _ => by simp, fun _ => rfl, rfl, rfl⟩
    fun done r t hr ht => ht.append hr

/-- The regions of the lost peer are those that an empty owned list of it would orphan. -/
theorem forRegions_loseOwner (p : Station) (s : State) : ListTaken p 0 allRegions s (s.forRegions (State.loseOwner p)) := by
  have hsame : State.loseOwner p = State.reconcile p 0 := by
    funext r t
    exact (if_neg (by simp)).symm
  rw [hsame]
  exact State.forRegions_induct (P := fun done t => ListTaken p 0 done s t) s (listTaken_nil p 0 s)
    fun done r t hr ht => ht.append hr (reconcile_taken p 0 r t)

/-! ### A pending CLAIM stays pending -/

theorem handLine_pending {s : State} {r : Region} {l : LineUnit} (m : Mark) (h : State.claimPending { s with line := l } r = true) :
    State.claimPending { s with line := handLine m l } r = true := by
  unfold State.claimPending at h ⊢
  unfold handLine
  dsimp only at h ⊢
  split
  · rw [List.any_append]
    rcases Bool.or_eq_true_iff.1 h with h | h
    · rcases Bool.or_eq_true_iff.1 h with h | h
      · simp [h]
      · simp only [h, Bool.or_true, Bool.true_or]
    · simp only [h, Bool.or_true]
  · rcases Bool.or_eq_true_iff.1 h with h | h
    · rcases Bool.or_eq_true_iff.1 h with h | h
      · simp [h]
      · rw [List.contains_iff_mem] at h
        simp [h]
    · simp only [h, Bool.or_true]

theorem handLine_claim_pending (s : State) (r : Region) (l : LineUnit) :
    State.claimPending { s with line := handLine (.claim r) l } r = true := by
  unfold State.claimPending handLine
  dsimp only
  split <;> simp [Mark.frame]

theorem wanted_pending {s : State} {r : Region} (hq : s.ctl.leaveQueued = false) : State.claimPending { s with line := wanted r s } r = true := by
  rw [wanted_open hq, claimLine]
  split
  · next h => exact h
  · exact handLine_claim_pending ..

theorem wanted_keeps_pending {s : State} {r : Region} (h : s.claimPending r = true) (q : Region) :
    State.claimPending { s with line := wanted q s } r = true := by
  unfold wanted claimLine
  split
  · exact h
  · split
    · exact h
    · exact handLine_pending _ h

/-- What each step keeps, and the step at one region sets, holds after the steps of all regions. -/
theorem foldl_sets {P Q : LineUnit → Prop} {g : LineUnit → Region → LineUnit} {r : Region} (hP : ∀ q l, P l → P (g l q))
    (hset : ∀ l, P l → Q (g l r)) (hkeep : ∀ q l, Q l → Q (g l q)) {rs : List Region} (hr : r ∈ rs) {l : LineUnit} (hl : P l) :
    Q (rs.foldl g l) := by
  induction rs generalizing l with
  | nil => cases hr
  | cons q rs ih =>
    by_cases hrs : r ∈ rs
    · exact ih hrs (hP q l hl)
    · obtain rfl : r = q := by simpa [hrs] using hr
      clear ih hr hrs
      have key : ∀ (rs : List Region) (k : LineUnit), Q k → Q (rs.foldl g k) := by
        intro rs
        induction rs with
        | nil => exact fun _ hk => hk
        | cons q rs ih => exact fun k hk => ih _ (hkeep q k hk)
      exact key rs _ (hset l hl)

section
variable {p : Station} {s : State} {r : Region}

theorem lostLine_withdraws (q : Region) {l : LineUnit}
    (h : ∀ x, l.marks.any (Mark.isWithdraw x) = s.line.marks.any (Mark.isWithdraw x)) (x : Region) :
    (lostLine p s q l).marks.any (Mark.isWithdraw x) = s.line.marks.any (Mark.isWithdraw x) := by
  unfold lostLine
  split
  · exact ((orphanedClaim_goesOn q { s with line := l }).withdraws x).trans (h x)
  · exact h x

theorem lostLine_keeps (q : Region) {l : LineUnit} (h : State.claimPending { s with line := l } r = true) :
    State.claimPending { s with line := lostLine p s q l } r = true := by
  unfold lostLine orphanedClaim
  split
  · split
    · split
      · exact wanted_keeps_pending h q
      · exact h
    · exact h
  · exact h

theorem askedLine_keeps (q : Region) {l : LineUnit} (h : State.claimPending { s with line := l } r = true) :
    State.claimPending { s with line := askedLine p s q l } r = true := by
  unfold askedLine
  split
  · split
    · exact wanted_keeps_pending h q
    · exact h
  · exact h

/-- The CLAIM of a record of the lost owner's region is pending after all regions of it were orphaned. -/
theorem lostLine_sets {c : ClaimRecord} (hc : s.liveRecord r = some c) (howner : (s.entry r).owner = some p) (hkind : c.kind = .normal)
    (hq : s.ctl.leaveQueued = false) {l : LineUnit}
    (h : ∀ x, l.marks.any (Mark.isWithdraw x) = s.line.marks.any (Mark.isWithdraw x)) :
    State.claimPending { s with line := lostLine p s r l } r = true := by
  have hlive : State.liveRecord { s with line := l } r = some c := (liveRecord_of (s := s) (t := { s with line := l }) rfl (h r)).trans hc
  rw [lostLine, if_pos howner, orphanedClaim_normal hlive hkind]
  exact wanted_pending (s := { s with line := l }) hq

theorem askedLine_sets {c : ClaimRecord} (hc : s.liveRecord r = some c)
    (h : c.kind = .orphan ∧ c.state = .deferred ∧ c.deferredTo = some p) (hq : s.ctl.leaveQueued = false) (l : LineUnit) :
    State.claimPending { s with line := askedLine p s r l } r = true := by
  rw [askedLine, hc]
  dsimp only
  rw [if_pos h]
  exact wanted_pending (s := { s with line := l }) hq

end

/-! ### The loss report (R101) -/

/-- A record changed is as live as it was, where the marks of the WITHDRAWs are the same. -/
theorem liveRecord_changed {s t : State} {r : Region} {c d : ClaimRecord} (hc : s.liveRecord r = some c) (hd : t.record r = some d)
    (hmarks : t.line.marks.any (Mark.isWithdraw r) = s.line.marks.any (Mark.isWithdraw r)) : t.liveRecord r = some d := by
  have hopen : s.line.marks.any (Mark.isWithdraw r) = false := by
    have hsome := State.record_of_live hc
    simpa [State.liveRecord, State.closing, hsome] using hc
  simp [State.liveRecord, State.closing, hd, hmarks, hopen]

/-- The record of a claim for a region of the lost peer goes on as an ORPHAN claim. -/
def lostClaim (p : Station) (owner : Option Station) (c : ClaimRecord) : ClaimRecord :=
  if owner = some p ∧ c.kind = .normal then orphanClaim c else c

theorem askedAgain_lostClaim (p : Station) (owner : Option Station) (c : ClaimRecord) :
    askedAgain p (lostClaim p owner c) = afterLoss p owner c := by
  unfold lostClaim afterLoss
  split
  · simp [askedAgain, orphanClaim]
  · rfl

/-- A record orphaned asks already, so what a region's record asks again is what the record before asked. -/
theorem askedLine_lostClaim {p : Station} {s t : State} {r : Region} {owner : Option Station} (hctl : t.ctl = s.ctl)
    (hlive : t.liveRecord r = (s.liveRecord r).map (lostClaim p owner)) (l : LineUnit) : askedLine p t r l = askedLine p s r l := by
  have hwanted : wanted r { t with line := l } = wanted r { s with line := l } :=
    wanted_congr (s := { s with line := l }) (t := { t with line := l }) hctl rfl r
  rw [askedLine, askedLine, hlive, hwanted]
  cases s.liveRecord r with
  | none => rfl
  | some c =>
    rw [Option.map_some, lostClaim]
    dsimp only
    by_cases h : owner = some p ∧ c.kind = .normal
    · rw [if_pos h, if_neg (by simp [orphanClaim]), if_neg (by simp [h.2])]
    · rw [if_neg h]

/-- An empty owned list leaves all but the directory, the records and the Line Unit as it was. -/
theorem ListTaken.emptyFrame {p : Station} {s t : State} (h : ListTaken p 0 allRegions s t) :
    { t with dir := s.dir, line := s.line, claims := { t.claims with records := s.claims.records, table := s.claims.table } } = s := by
  have hset : t.pub.set = s.pub.set := pick_ext fun r => (h.pub r).trans ((if_pos (mem_allRegions r)).trans (by simp [reconciledPub, State.pubEntry]))
  have hserve : t.claims.serve = s.claims.serve :=
    pick_ext fun r => (h.serving r).trans ((if_pos (mem_allRegions r)).trans (by simp [reconciledServing, Yields, State.serving]))
  have hcmd : t.cmd = s.cmd := by
    rw [h.cmd, List.flatMap_eq_nil_iff.2 fun r _ => by simp [reconcileNotices], noticed_nil]
  have hpub : t.pub = s.pub := by
    have hframe : { t.pub with set := s.pub.set } = s.pub := (congrArg State.pub h.frame :)
    rwa [← hset] at hframe
  refine State.eq_of (congrArg State.port h.frame :) (congrArg State.image h.frame :) rfl hpub ?_ (congrArg State.roster h.frame :)
    (congrArg State.ctl h.frame :) (congrArg State.parked h.frame :) hcmd rfl (congrArg State.pending h.frame :)
  dsimp only
  rw [hserve]

theorem reportLoss_lost (p : Station) (s : State) : Lost p s (s.reportLoss p) := by
  have ha := forRegions_loseOwner p s
  unfold State.reportLoss
  dsimp only
  generalize s.forRegions (State.loseOwner p) = a at ha
  have hb := forRegions_releaseDeferred p (a.removeEverywhere p)
  generalize hbdef : a.removeEverywhere p = b at hb
  generalize b.forRegions (State.releaseDeferred p) = t at hb
  have hctl : b.ctl = s.ctl := by rw [← hbdef]; exact (congrArg State.ctl ha.frame :)
  have hline : b.line = allRegions.foldl (fun l r => lostLine p s r l) s.line := by
    rw [← hbdef]
    refine ha.line.trans ?_
    simp only [reconciledLine, BitVec.ofNat_eq_ofNat, BitVec.getLsbD_zero, Bool.false_eq_true, if_false]
    rfl
  have hwithdraws (q : Region) : b.line.marks.any (Mark.isWithdraw q) = s.line.marks.any (Mark.isWithdraw q) := by
    rw [← hbdef]
    exact ha.withdraws q
  have hrecord (r : Region) : b.record r =
      goesOn (lostClaim p (s.entry r).owner) s r := by
    rw [← hbdef]
    refine (ha.record r).trans ((if_pos (mem_allRegions r)).trans (goesOn_congr (fun c => ?_) rfl rfl))
    simp [reconciledClaim, lostClaim]
  have hlive (r : Region) : b.liveRecord r = (s.liveRecord r).map (lostClaim p (s.entry r).owner) := by
    cases hc : s.liveRecord r with
    | none => rw [liveRecord_of ((hrecord r).trans (goesOn_none hc)) (hwithdraws r), hc]; rfl
    | some c => exact liveRecord_changed hc ((hrecord r).trans (goesOn_live hc)) (hwithdraws r)
  have hasked : t.line = allRegions.foldl (fun l r => askedLine p s r l) b.line := by
    have hfun : (fun l r => askedLine p b r l) = fun l r => askedLine p s r l := by
      funext l r
      exact askedLine_lostClaim hctl (hlive r) l
    rw [hb.line, hfun]
  have hchanged (r : Region) {c : ClaimRecord} (hc : s.liveRecord r = some c) :
      t.record r = some (afterLoss p (s.entry r).owner c) := by
    rw [hb.record, if_pos (mem_allRegions r), goesOn_live (by rw [hlive, hc]; rfl), askedAgain_lostClaim]
  refine ⟨fun r => ?_, fun r c hc => hchanged r hc, fun r c hc hne hq => ?_, fun r hnone => ?_, ?_, ?_, ?_⟩
  · have hentry : t.entry r = a.entry r := by
      rw [← hbdef] at hb
      exact (congrArg (fun v : State => v.entry r) hb.frame :)
    rw [hentry, ha.entry, if_pos (mem_allRegions r)]
    simp [reconciled]
  · have hpending : State.claimPending { s with line := t.line } r = true := by
      rw [hasked, hline]
      by_cases hlost : (s.entry r).owner = some p ∧ c.kind = .normal
      · have hfirst : State.claimPending { s with line := allRegions.foldl (fun l r => lostLine p s r l) s.line } r = true :=
          foldl_sets (P := fun l => ∀ x, l.marks.any (Mark.isWithdraw x) = s.line.marks.any (Mark.isWithdraw x))
            (Q := fun l => State.claimPending { s with line := l } r = true) (fun q _ => lostLine_withdraws q)
            (fun _ => lostLine_sets hc hlost.1 hlost.2 hq) (fun q _ => lostLine_keeps q) (mem_allRegions r) fun _ => rfl
        exact foldl_sets (P := fun l => State.claimPending { s with line := l } r = true)
          (Q := fun l => State.claimPending { s with line := l } r = true) (fun q _ => askedLine_keeps q)
          (fun _ => askedLine_keeps r) (fun q _ => askedLine_keeps q) (mem_allRegions r) hfirst
      · have hdeferred : c.kind = .orphan ∧ c.state = .deferred ∧ c.deferredTo = some p := by
          by_contra hnot
          exact hne (by rw [afterLoss, if_neg hlost, if_neg hnot])
        exact foldl_sets (P := fun _ => True) (Q := fun l => State.claimPending { s with line := l } r = true) (fun _ _ _ => trivial)
          (fun l _ => askedLine_sets hc hdeferred hq l) (fun q _ => askedLine_keeps q) (mem_allRegions r) trivial
    exact hpending
  · rw [hb.record, if_pos (mem_allRegions r), goesOn_none (by rw [hlive, hnone]; rfl), hrecord, goesOn_none hnone]
  · have htable : t.claims.table = b.claims.table := (congrArg (fun v : State => v.claims.table) hb.frame :)
    have hkept : a.claims.table = s.claims.table := ha.table.trans (by simp [Yields])
    rw [htable, ← hbdef, ← hkept]
    rfl
  · rw [hasked, hline]
  · have hframe := congrArg (fun v : State => { v with
      dir := s.dir, line := s.line, claims := { v.claims with records := s.claims.records, table := s.claims.table } }) hb.frame
    refine hframe.trans ?_
    rw [← hbdef]
    exact ha.emptyFrame

/-! ### The peers lost -/

/-- The entry of a peer that was known is dropped with PEER_GONE. -/
theorem dropPeer_notify (p : Station) (byLeave : Bool) (s : State) : (s.dropPeer p).notify (.peerGone p byLeave) = { s with
    roster := put s.roster p { s.peer p with state := .absent, silence := .stopped }
    cmd := noticed [.peerGone p byLeave] s.ctl.ticks s.cmd } := by
  rw [State.notify_eq]
  rfl

theorem peerLeft_known {s : State} {p : Station} (h : (s.peer p).state ≠ .absent) :
    s.peerLeft p = ((s.dropPeer p).notify (.peerGone p true)).reportLoss p := by
  unfold State.peerLeft
  split
  · contradiction
  all_goals rfl

theorem peerLeft_absent {s : State} {p : Station} (h : (s.peer p).state = .absent) : s.peerLeft p = s.reportLoss p := by
  rw [State.peerLeft, h]

/-- A LEAVE goes to the roster alone. -/
theorem exec_leaveReceived {s : State} {h : Header} {p : Station} (hmode : s.ctl.mode.receives = true) (hsilent : s.transmitting = false)
    (hsource : stationOf h.source = some p) (hother : p ≠ s.ctl.ownId) :
    exec (.leaveReceived h) s = .next (State.peerLeft p { s with line := burstLine h.source s.line }) := by
  refine congrArg Host.Outcome.next ((receive_announced hmode hsilent hsource hother (v := .leave) rfl _).trans ?_)
  exact ite_self _

/-- Settles O41: silence and a LEAVE report the loss of the peer. -/
theorem peersLost : Obligations.PeersLost := by
  intro s p gone
  refine ⟨fun hdue => ?_, fun h hmode hsilent hsource hother => ?_⟩
  · refine ⟨_, congrArg Host.Outcome.next (if_pos hdue), ?_⟩
    rw [dropPeer_notify]
    exact reportLoss_lost p (gone false s)
  · intro u
    rw [exec_leaveReceived hmode hsilent hsource hother]
    refine ⟨fun hknown => ⟨_, rfl, ?_⟩, fun habsent => ⟨_, rfl, ?_⟩⟩
    · rw [peerLeft_known (by exact hknown), dropPeer_notify]
      exact reportLoss_lost p (gone true u)
    · rw [peerLeft_absent (by exact habsent)]
      exact reportLoss_lost p u

end Sys2Proof.Machine

/-! What stands at one region, gathered: the law of ownership is a law of each place (`PlaceLaw`) and of what no region has
alone. Acts that change no place (`Same`) keep it, and acts at one region (`AtRegion`) where they leave a lawful place there. -/

namespace Sys2Proof.Machine

open Sys2Proof.Safety

/-- The target of a captured HANDOVER. -/
def capturedTarget : Handover → Option Station
  | .captured target _ => some target
  | .idle | .queued => none

theorem capturedTarget_iff {x : Handover} {p : Station} : capturedTarget x = some p ↔ ∃ list, x = .captured p list := by
  cases x <;> simp [capturedTarget]

/-- What the law of ownership reads at one region. -/
structure Place where
  /-- The entry, but for its sequence and its release state. -/
  entry : DirEntry
  pub : Option PubEntry
  /-- A claim record stands there. -/
  recorded : Bool
  /-- A WITHDRAW mark of the region waits: its record is closing. -/
  withdrawn : Bool
  /-- The target of its captured HANDOVER. -/
  target : Option Station
  claimants : List Station
  parked : List ParkedWrite

/-- An entry without its sequence and its release state. -/
def DirEntry.plain (e : DirEntry) : DirEntry := { e with lastSeq := 0, release := .idle }

/-- The place of a region. -/
def State.place (s : State) (r : Region) : Place :=
  { entry := (s.entry r).plain, pub := s.pubEntry r, recorded := (s.record r).isSome
    withdrawn := s.line.marks.any (Mark.isWithdraw r), target := capturedTarget (s.serving r).handover
    claimants := s.claimants r, parked := s.parkedFor r }

/-- The law of ownership at one place. -/
structure PlaceLaw (own : Station) (x : Place) : Prop where
  roles : agrees own x.entry
  valid : x.entry.role.owns = true → x.entry.replica = .valid
  fresh : x.entry.replica = .valid → x.entry.staleAge = 0 ∧ x.entry.repair = false
  marks : x.entry.role.owns = false → x.entry.held = false ∧ x.entry.tenure = .stopped
  published : ∀ e, x.pub = some e → x.entry.role = .owner ∧ e.low ≤ e.high
  records : x.entry.role.owns = true → x.recorded = false
  claimants : x.claimants.length ≤ 4 ∧ x.claimants.Nodup ∧ own ∉ x.claimants ∧ (x.claimants ≠ [] → x.entry.role.owns = true)
  captured : ∀ target, x.target = some target → x.entry.role = .handing ∧ target ≠ own
  parked : ∀ w, w ∈ x.parked → x.recorded = true ∧ x.withdrawn = false ∧ (laneGroup w.lanes).isSome = true

/-- A TAKE of the region is on the line. -/
def TakeOnLine (s : State) (r : Region) : Prop := ∃ f, s.line.flight = some f ∧ f.transmitting = true ∧ f.job = .control (.take r)

/-! ### The queues of the regions and the table -/

theorem mem_claimants {s : State} {r : Region} {p : Station} :
    p ∈ s.claimants r ↔ ({ region := r, claimant := p } : TableEntry) ∈ s.claims.table := by
  simp only [State.claimants, List.mem_map, List.mem_filter, beq_iff_eq]
  constructor
  · rintro ⟨⟨region, claimant⟩, ⟨hmem, rfl⟩, rfl⟩
    exact hmem
  · exact fun h => ⟨_, ⟨h, rfl⟩, rfl⟩

/-- No two entries of the table are alike exactly where no queue names a station twice. -/
theorem table_nodup_iff (s : State) : s.claims.table.Nodup ↔ ∀ r, (s.claimants r).Nodup := by
  constructor
  · intro h r
    refine List.Nodup.map_on (fun a ha b hb hab => ?_) (h.filter _)
    have hra : a.region = r := by simpa using (List.mem_filter.1 ha).2
    have hrb : b.region = r := by simpa using (List.mem_filter.1 hb).2
    cases a
    cases b
    simp_all
  · intro h
    rw [List.nodup_iff_count_le_one]
    intro a
    by_cases ha : a ∈ s.claims.table
    · have hcount := List.nodup_iff_count_le_one.1 (h a.region) a.claimant
      refine le_trans ?_ hcount
      calc s.claims.table.count a = (s.claims.table.filter fun e => e.region == a.region).count a :=
            (List.count_filter (by simp)).symm
        _ ≤ (s.claimants a.region).count a.claimant := List.count_le_count_map
    · simp [List.count_eq_zero.2 ha]

theorem State.live_isSome (s : State) (r : Region) :
    (s.liveRecord r).isSome = ((s.place r).recorded && !(s.place r).withdrawn) := by
  unfold State.liveRecord State.closing State.place
  cases hrecord : s.record r <;> cases hmarks : s.line.marks.any (Mark.isWithdraw r) <;> simp

/-- The law of ownership, place by place. -/
theorem ownershipLaw_iff (s : State) : OwnershipLaw s ↔
    (∀ r, PlaceLaw s.ctl.ownId (s.place r)) ∧ s.recordCount ≤ 8 ∧ s.claims.table.length ≤ 16 ∧
      s.peer s.ctl.ownId = RosterEntry.reset ∧ ∀ r, TakeOnLine s r → (s.entry r).role.owns = false := by
  constructor
  · intro h
    obtain ⟨hlength, hnodup, hfour, howned⟩ := h.table
    refine ⟨fun r => ?_, h.records.1, hlength, h.roles.roster, fun r ⟨f, hf, ht, hj⟩ => h.taking f r hf ht hj⟩
    refine ⟨h.roles.roles r, h.valid r, h.fresh r, h.marks r, h.published r, fun ho => ?_, ⟨hfour r, (table_nodup_iff s).1 hnodup r, ?_, ?_⟩,
      fun target hc => ?_, fun w hw => ?_⟩
    · simp [State.place, h.records.2 r ho]
    · exact fun hm => h.roles.claimants _ (mem_claimants.1 hm) rfl
    · intro hne
      obtain ⟨p, hp⟩ := List.exists_mem_of_ne_nil _ hne
      exact howned _ (mem_claimants.1 hp)
    · obtain ⟨list, hc⟩ := capturedTarget_iff.1 hc
      exact ⟨h.captured r target list hc, h.roles.targets r target list hc⟩
    · obtain ⟨hw, hr⟩ := List.mem_filter.1 hw
      obtain ⟨hlive, hlanes⟩ := h.parked w hw
      rw [show w.region = r by simpa using hr, State.live_isSome] at hlive
      simp only [Bool.and_eq_true, Bool.not_eq_true'] at hlive
      exact ⟨hlive.1, hlive.2, hlanes⟩
  · rintro ⟨h, hcount, hlength, hroster, htake⟩
    refine ⟨⟨fun r => (h r).roles, fun e he hown => ?_, fun r t l hc => ((h r).captured t (capturedTarget_iff.2 ⟨l, hc⟩)).2, hroster⟩,
      fun r => (h r).valid, fun r => (h r).fresh, fun r => (h r).marks, fun r => (h r).published, ⟨hcount, fun r ho => ?_⟩,
      ⟨hlength, (table_nodup_iff s).2 fun r => (h r).claimants.2.1, fun r => (h r).claimants.1, fun e he => ?_⟩,
      fun r t l hc => ((h r).captured t (capturedTarget_iff.2 ⟨l, hc⟩)).1, fun f r hf ht hj => htake r ⟨f, hf, ht, hj⟩, fun w hw => ?_⟩
    · have hm : e.claimant ∈ s.claimants e.region := mem_claimants.2 he
      rw [hown] at hm
      exact (h e.region).claimants.2.2.1 hm
    · simpa [State.place] using (h r).records ho
    · have hm : e.claimant ∈ s.claimants e.region := mem_claimants.2 he
      exact (h e.region).claimants.2.2.2 (List.ne_nil_of_mem hm)
    · obtain ⟨hrec, hwd, hlanes⟩ := (h w.region).parked w (List.mem_filter.2 ⟨hw, by simp⟩)
      exact ⟨by rw [State.live_isSome, hrec, hwd]; rfl, hlanes⟩

/-! ### Acts that change no place, and acts at one region -/

/-- An act at one region. -/
structure AtRegion (r : Region) (s t : State) : Prop where
  own : t.ctl.ownId = s.ctl.ownId
  roster : t.peer s.ctl.ownId = s.peer s.ctl.ownId
  table : t.claims.table.length ≤ max 16 s.claims.table.length
  take : ∀ q, TakeOnLine t q → TakeOnLine s q
  others : ∀ q, q ≠ r → t.place q = s.place q

/-- An act that changes what stands at no region. -/
structure Same (s t : State) : Prop where
  own : t.ctl.ownId = s.ctl.ownId
  roster : t.peer s.ctl.ownId = s.peer s.ctl.ownId
  table : t.claims.table.length ≤ s.claims.table.length
  take : ∀ q, TakeOnLine t q → TakeOnLine s q
  place : ∀ q, t.place q = s.place q

theorem Same.refl (s : State) : Same s s := ⟨rfl, rfl, le_rfl, fun _ => id, fun _ => rfl⟩

theorem Same.trans {s t u : State} (h : Same s t) (g : Same t u) : Same s u :=
  ⟨g.own.trans h.own, by rw [← h.roster, ← h.own, g.roster], g.table.trans h.table, fun q => h.take q ∘ g.take q,
    fun q => (g.place q).trans (h.place q)⟩

theorem AtRegion.trans {r : Region} {s t u : State} (h : AtRegion r s t) (g : AtRegion r t u) : AtRegion r s u :=
  ⟨g.own.trans h.own, by rw [← h.roster, ← h.own, g.roster], by have h1 := h.table; have h2 := g.table; omega,
    fun q => h.take q ∘ g.take q, fun q hq => (g.others q hq).trans (h.others q hq)⟩

theorem Same.at {s t : State} (h : Same s t) (r : Region) : AtRegion r s t :=
  ⟨h.own, h.roster, by have := h.table; omega, h.take, fun q _ => h.place q⟩

/-! ### The count of the records -/

theorem recordCount_eq (s : State) : s.recordCount = allRegions.countP fun r => (s.record r).isSome := by
  have hlist : s.claims.records.toList = allRegions.map s.record := by
    refine List.ext_getElem (by simp [allRegions]) fun i h1 h2 => ?_
    simp [allRegions, State.record, pick]
  rw [State.recordCount, hlist, List.filter_map, List.length_map, List.countP_eq_length_filter]
  rfl

/-- Fewer regions with a record, fewer slots in use. -/
theorem recordCount_le {s t : State} (h : ∀ r, (t.record r).isSome = true → (s.record r).isSome = true) :
    t.recordCount ≤ s.recordCount := by
  rw [recordCount_eq, recordCount_eq]
  exact List.countP_mono_left fun r _ => h r

/-- One record more takes at most one slot more. -/
theorem recordCount_le_succ {s t : State} (r : Region) (h : ∀ q, q ≠ r → (t.record q).isSome = (s.record q).isSome) :
    t.recordCount ≤ s.recordCount + 1 := by
  have key : ∀ l : List Region, l.Nodup → (l.countP fun q => (t.record q).isSome) ≤
      (l.countP fun q => (s.record q).isSome) + if r ∈ l then 1 else 0 := by
    intro l hl
    induction l with
    | nil => simp
    | cons q l ih =>
      obtain ⟨hq, hl⟩ := List.nodup_cons.1 hl
      have hle := ih hl
      rw [List.countP_cons, List.countP_cons]
      by_cases hqr : q = r
      · subst hqr
        rw [if_neg hq] at hle
        simp only [List.mem_cons_self, if_true]
        split <;> split <;> omega
      · rw [h q hqr]
        have hmem : r ∈ q :: l ↔ r ∈ l := by simp [Ne.symm hqr]
        rw [if_congr hmem rfl rfl]
        omega
  have hcount := key allRegions (List.nodup_finRange 128)
  rwa [if_pos (mem_allRegions r), ← recordCount_eq, ← recordCount_eq] at hcount

/-! ### Both keep the law -/

theorem placeLaw_of {s : State} (h : OwnershipLaw s) (r : Region) : PlaceLaw s.ctl.ownId (s.place r) :=
  ((ownershipLaw_iff s).1 h).1 r

theorem Same.owned {s t : State} (h : Same s t) (hs : OwnershipLaw s) : OwnershipLaw t := by
  obtain ⟨hp, hcount, hlength, hroster, htake⟩ := (ownershipLaw_iff s).1 hs
  refine (ownershipLaw_iff t).2 ⟨fun r => ?_, ?_, h.table.trans hlength, ?_, fun r ht => ?_⟩
  · rw [h.own, h.place]; exact hp r
  · exact (recordCount_le fun r hr => (congrArg Place.recorded (h.place r)).symm.trans hr).trans hcount
  · rw [h.own, h.roster, hroster]
  · have hrole : (t.entry r).role = (s.entry r).role := congrArg (fun x => x.entry.role) (h.place r)
    rw [hrole]
    exact htake r (h.take r ht)

/-- An act at one region keeps the law of ownership where it leaves a lawful place, finds room for a record that it makes, and makes
no region owned whose TAKE is on the line. -/
theorem AtRegion.owned {r : Region} {s t : State} (h : AtRegion r s t) (hs : OwnershipLaw s) (hx : PlaceLaw s.ctl.ownId (t.place r))
    (hcount : (t.record r).isSome = true → (s.record r).isSome = true ∨ s.recordCount < 8)
    (htake : (t.entry r).role.owns = true → (s.entry r).role.owns = true ∨ ¬TakeOnLine t r) : OwnershipLaw t := by
  obtain ⟨hp, hcount8, hlength, hroster, htakes⟩ := (ownershipLaw_iff s).1 hs
  have hrecord (q : Region) (hq : q ≠ r) : (t.record q).isSome = (s.record q).isSome := congrArg Place.recorded (h.others q hq)
  refine (ownershipLaw_iff t).2 ⟨fun q => ?_, ?_, by have := h.table; omega, ?_, fun q ht => ?_⟩
  · rw [h.own]
    by_cases hq : q = r
    · rw [hq]; exact hx
    · rw [h.others q hq]; exact hp q
  · by_cases hgrow : (t.record r).isSome = true → (s.record r).isSome = true
    · refine (recordCount_le fun q hq => ?_).trans hcount8
      by_cases hqr : q = r
      · subst hqr; exact hgrow hq
      · rwa [hrecord q hqr] at hq
    · obtain ⟨hrec, hno⟩ := Classical.not_imp.1 hgrow
      have hroom := (hcount hrec).resolve_left hno
      exact (recordCount_le_succ r hrecord).trans hroom
  · rw [h.own, h.roster, hroster]
  · by_cases hq : q = r
    · subst hq
      rw [← Bool.not_eq_true]
      intro howns
      obtain howns | hno := htake howns
      · simp [htakes q (h.take q ht)] at howns
      · exact hno ht
    · have hrole : (t.entry q).role = (s.entry q).role := congrArg (fun x => x.entry.role) (h.others q hq)
      rw [hrole]
      exact htakes q (h.take q ht)

end Sys2Proof.Machine

/-! The acts that change no place, and the plain updates at one region. -/

namespace Sys2Proof.Machine

open Sys2Proof.Safety

/-! ### The frame on the line -/

theorem takeOnLine_flight {s t : State} (h : t.line.flight = s.line.flight) (q : Region) : TakeOnLine t q → TakeOnLine s q := by
  unfold TakeOnLine
  rw [h]
  exact id

theorem takeOnLine_none {s t : State} (h : t.line.flight = none) (q : Region) : TakeOnLine t q → TakeOnLine s q := by
  rintro ⟨f, hf, -⟩
  rw [h] at hf
  cases hf

/-- A change of the frame in flight that keeps what it is and does not begin its attempt. -/
theorem takeOnLine_map {s t : State} {g : Flight → Flight} (h : t.line.flight = s.line.flight.map g)
    (hg : ∀ f, (g f).job = f.job ∧ ((g f).transmitting = true → f.transmitting = true)) (q : Region) : TakeOnLine t q → TakeOnLine s q := by
  rintro ⟨f, hf, htransmitting, hjob⟩
  rw [h] at hf
  obtain ⟨f', hf', rfl⟩ := Option.map_eq_some_iff.1 hf
  exact ⟨f', hf', (hg f').2 htransmitting, (hg f').1.symm.trans hjob⟩

theorem silent_noTake {s : State} (h : s.transmitting = false) (q : Region) : ¬TakeOnLine s q := by
  rintro ⟨f, hf, htransmitting, -⟩
  simp [State.transmitting, hf, htransmitting] at h

/-! ### Acts that change no place -/

namespace Same

theorem withPort (s : State) (x : Port) : Same s { s with port := x } := ⟨rfl, rfl, le_rfl, fun _ => id, fun _ => rfl⟩
theorem withImage (s : State) (x : Image) : Same s { s with image := x } := ⟨rfl, rfl, le_rfl, fun _ => id, fun _ => rfl⟩
theorem withCmd (s : State) (x : CommandUnit) : Same s { s with cmd := x } := ⟨rfl, rfl, le_rfl, fun _ => id, fun _ => rfl⟩

theorem withCtl (s : State) {x : Controller} (h : x.ownId = s.ctl.ownId) : Same s { s with ctl := x } :=
  ⟨h, rfl, le_rfl, fun _ => id, fun _ => rfl⟩

theorem withPub (s : State) {x : Publication} (h : x.set = s.pub.set) : Same s { s with pub := x } := by
  refine ⟨rfl, rfl, le_rfl, fun _ => id, fun q => ?_⟩
  unfold State.place State.pubEntry
  dsimp only
  rw [h]
  rfl

theorem withLine (s : State) {x : LineUnit} (hmarks : ∀ q, x.marks.any (Mark.isWithdraw q) = s.line.marks.any (Mark.isWithdraw q))
    (htake : ∀ q, TakeOnLine { s with line := x } q → TakeOnLine s q) : Same s { s with line := x } := by
  refine ⟨rfl, rfl, le_rfl, htake, fun q => ?_⟩
  unfold State.place
  dsimp only
  rw [hmarks]
  rfl

theorem withFlight (s : State) {x : LineUnit} (hmarks : x.marks = s.line.marks)
    (htake : ∀ q, TakeOnLine { s with line := x } q → TakeOnLine s q) : Same s { s with line := x } :=
  withLine s (fun q => by rw [hmarks]) htake

/-- A record changed where one stands. -/
theorem withRecord {s : State} {r : Region} (c : ClaimRecord) (h : (s.record r).isSome = true) : Same s (s.setRecord r (some c)) := by
  refine ⟨rfl, rfl, le_rfl, fun _ => id, fun q => ?_⟩
  have hrecord : ((s.setRecord r (some c)).record q).isSome = (s.record q).isSome := by
    by_cases hq : q = r
    · rw [hq, h, State.record, State.setRecord, pick_put_same]; rfl
    · rw [State.record, State.setRecord, pick_put_other _ _ hq]; rfl
  unfold State.place
  rw [hrecord]
  rfl

theorem withServing (s : State) {r : Region} {e : ServeEntry} (h : capturedTarget e.handover = capturedTarget (s.serving r).handover) :
    Same s (s.setServing r e) := by
  refine ⟨rfl, rfl, le_rfl, fun _ => id, fun q => ?_⟩
  have htarget : capturedTarget ((s.setServing r e).serving q).handover = capturedTarget (s.serving q).handover := by
    by_cases hq : q = r
    · rw [hq, ← h, State.serving, State.setServing, pick_put_same]
    · rw [State.serving, State.setServing, pick_put_other _ _ hq]; rfl
  unfold State.place
  rw [htarget]
  rfl

theorem withEntry (s : State) {r : Region} {e : DirEntry} (h : e.plain = (s.entry r).plain) : Same s (s.setEntry r e) := by
  refine ⟨rfl, rfl, le_rfl, fun _ => id, fun q => ?_⟩
  have hentry : ((s.setEntry r e).entry q).plain = (s.entry q).plain := by
    by_cases hq : q = r
    · rw [hq, ← h, State.entry, State.setEntry, pick_put_same]
    · rw [State.entry, State.setEntry, pick_put_other _ _ hq]; rfl
  unfold State.place
  rw [hentry]
  rfl

theorem withPeer (s : State) {p : Station} (e : RosterEntry) (h : p ≠ s.ctl.ownId) : Same s (s.setPeer p e) :=
  ⟨rfl, pick_put_other _ _ h.symm, le_rfl, fun _ => id, fun _ => rfl⟩

theorem foldl {α : Type} {f : State → α → State} (h : ∀ s a, Same s (f s a)) (l : List α) (s : State) : Same s (l.foldl f s) := by
  induction l generalizing s with
  | nil => exact Same.refl s
  | cons a l ih => exact (h s a).trans (ih _)

end Same

/-! ### Notices and frames handed over -/

theorem State.notify_same (n : Notice) (s : State) : Same s (s.notify n) := by
  rw [State.notify_eq]
  exact Same.withCmd s _

theorem State.transition_same (m : Mode) (c : Cause) (s : State) : Same s (s.transition m c) := by
  rw [State.transition_eq]
  exact ⟨rfl, rfl, le_rfl, fun _ => id, fun _ => rfl⟩

theorem handLine_flight (m : Mark) (l : LineUnit) : (handLine m l).flight = l.flight := by
  unfold handLine
  split <;> rfl

theorem handLine_withdraws {m : Mark} (hm : ∀ q, Mark.isWithdraw q m = false) (l : LineUnit) (q : Region) :
    (handLine m l).marks.any (Mark.isWithdraw q) = l.marks.any (Mark.isWithdraw q) := by
  unfold handLine
  split
  · rfl
  · simp [hm q]

theorem State.hand_same {m : Mark} (hm : ∀ q, Mark.isWithdraw q m = false) (s : State) : Same s (s.hand m) := by
  rw [State.hand_handed]
  unfold handed
  split
  · exact Same.refl s
  · exact Same.withLine s (handLine_withdraws hm s.line) (takeOnLine_flight (handLine_flight m s.line))

theorem State.answer_same (q : QFrame) (s : State) : Same s (s.answer q) := by
  rw [State.answer_replied]
  refine Same.withFlight s (replied_marks q s) (takeOnLine_flight ?_)
  unfold replied answerLine
  dsimp only
  split_ifs <;> rfl

theorem State.refuseAll_same (r : Region) (why : RefuseReason) (believed : Option Station) (ps : List Station) (s : State) :
    Same s (s.refuseAll r why believed ps) := Same.foldl (fun s _ => s.answer_same _) ps s

theorem State.needClaim_same (r : Region) (s : State) : Same s (s.needClaim r) := by
  unfold State.needClaim
  split
  · exact Same.refl s
  · exact s.hand_same fun _ => rfl

theorem State.withdrawIfRoom_same (r : Region) (s : State) : Same s (s.withdrawIfRoom r) := by
  rw [State.withdrawIfRoom_line]
  unfold withdrawnLine
  refine Same.withFlight s ?_ (takeOnLine_flight ?_) <;> dsimp only <;> split_ifs <;> rfl

theorem State.clearMarks_same {p : Mark → Bool} (hp : ∀ q m, Mark.isWithdraw q m = true → p m = false) (s : State) :
    Same s (s.clearMarks p) := by
  refine Same.withLine s (fun q => ?_) fun _ => id
  exact any_isWithdraw_filter (fun b => by simp [hp q _ (by simp [Mark.isWithdraw] : Mark.isWithdraw q (.withdraw q b) = true)]) _

theorem State.fell_same (p : QFrame → Bool) (s : State) : Same s (s.fell p) := by
  refine Same.withFlight s rfl (takeOnLine_map (g := fun f => match f.job with
    | .control q => if p q then { f with fallen := true } else f
    | .presence | .update _ => f) rfl fun f => ?_)
  obtain ⟨job, attempt, frame, fallen, wait, transmitting, stale⟩ := f
  cases job with
  | control q => dsimp only; split <;> exact ⟨rfl, id⟩
  | presence | update _ => exact ⟨rfl, id⟩

theorem State.endFlight_same (s : State) : Same s s.endFlight := Same.withFlight s rfl (takeOnLine_none rfl)

theorem State.startWait_same (s : State) : Same s s.startWait := by
  refine Same.withFlight s rfl (takeOnLine_map (g := fun f => if f.transmitting then f
    else { f with wait := some (deferralWait s.ctl.ownId s.line.rotation f.attempt f.job) }) rfl fun f => ?_)
  split <;> exact ⟨rfl, id⟩

theorem LineUnit.claimFell_same (r : Region) (s : State) : Same s { s with line := s.line.claimFell r } := by
  refine Same.withFlight s rfl (takeOnLine_map
    (g := fun f => if f.job = .control (.claim r) ∧ f.frame.isSome then { f with fallen := true } else f) rfl fun f => ?_)
  split <;> exact ⟨rfl, id⟩

theorem State.dropClaimMark_same (r : Region) (s : State) : Same s (s.dropClaimMark r) :=
  s.clearMarks_same fun q m hm => by cases m <;> simp_all [Mark.isWithdraw]

theorem State.claimWithdrawn_same (r : Region) (s : State) : Same s (s.claimWithdrawn r) :=
  (s.dropClaimMark_same r).trans (LineUnit.claimFell_same r _)

/-! ### Claims that go on, and regions served or released -/

theorem record_isSome {s : State} {r : Region} {c : ClaimRecord} (hc : s.liveRecord r = some c) : (s.record r).isSome = true := by
  rw [State.record_of_live hc]
  rfl

theorem State.toOrphanClaim_same (r : Region) (s : State) : Same s (s.toOrphanClaim r) := by
  unfold State.toOrphanClaim
  split
  · next c hc =>
    split
    · exact (Same.withRecord _ (record_isSome hc)).trans (State.needClaim_same r _)
    · exact Same.refl s
  · exact Same.refl s

theorem State.toNormalClaim_same (r : Region) (s : State) : Same s (s.toNormalClaim r) := by
  unfold State.toNormalClaim
  split
  · next c hc =>
    split
    · refine ((Same.withRecord _ (record_isSome hc)).trans (State.clearMarks_same (fun q m hm => ?_) _)).trans (State.needClaim_same r _)
      cases m <;> simp_all [Mark.isWithdraw]
    · exact Same.refl s
  · exact Same.refl s

theorem State.releaseDeferred_same (p : Station) (r : Region) (s : State) : Same s (s.releaseDeferred p r) := by
  unfold State.releaseDeferred
  split
  · next c hc =>
    split
    · exact (Same.withRecord _ (record_isSome hc)).trans (State.needClaim_same r _)
    · exact Same.refl s
  · exact Same.refl s

theorem State.serve_same (r : Region) (s : State) : Same s (s.serve r) := by
  unfold State.serve
  split
  · next h =>
    obtain ⟨-, -, hidle, -⟩ := (servable_iff s r).1 h
    exact (Same.withServing s (by rw [hidle]; rfl)).trans (State.hand_same (fun _ => rfl) _)
  · exact Same.refl s

theorem State.requestRelease_same (r : Region) (s : State) : Same s (s.requestRelease r) := by
  unfold State.requestRelease
  split
  · exact (Same.withEntry (e := { s.entry r with release := .queued }) s rfl).trans (State.hand_same (fun _ => rfl) _)
  · exact Same.refl s

theorem State.releaseIfLeaving_same (r : Region) (s : State) : Same s (s.releaseIfLeaving r) := by
  unfold State.releaseIfLeaving
  split
  · exact s.requestRelease_same r
  · exact Same.refl s

theorem State.goOn_same (r : Region) (s : State) : Same s (s.goOn r) := (s.serve_same r).trans (State.releaseIfLeaving_same r _)

theorem State.releaseIdle_same (r : Region) (s : State) : Same s (s.releaseIdle r) :=
  Same.withEntry (e := { s.entry r with release := .idle }) s rfl

/-! ### Plain updates at one region -/

theorem place_congr {s t : State} {q : Region} (hentry : t.entry q = s.entry q) (hpub : t.pubEntry q = s.pubEntry q)
    (hrecord : t.record q = s.record q) (hmarks : t.line.marks.any (Mark.isWithdraw q) = s.line.marks.any (Mark.isWithdraw q))
    (hserving : t.serving q = s.serving q) (hclaimants : t.claimants q = s.claimants q) (hparked : t.parkedFor q = s.parkedFor q) :
    t.place q = s.place q := by
  unfold State.place
  rw [hentry, hpub, hrecord, hmarks, hserving, hclaimants, hparked]

namespace AtRegion

variable (s : State) (r : Region)

theorem setEntry (e : DirEntry) : AtRegion r s (s.setEntry r e) :=
  ⟨rfl, rfl, le_max_right _ _, fun _ => id, fun _ hq => place_congr (pick_put_other _ _ hq) rfl rfl rfl rfl rfl rfl⟩

theorem setServing (e : ServeEntry) : AtRegion r s (s.setServing r e) :=
  ⟨rfl, rfl, le_max_right _ _, fun _ => id, fun _ hq => place_congr rfl rfl rfl rfl (pick_put_other _ _ hq) rfl rfl⟩

theorem setPub (e : Option PubEntry) : AtRegion r s (s.setPub r e) :=
  ⟨rfl, rfl, le_max_right _ _, fun _ => id, fun _ hq => place_congr rfl (pick_put_other _ _ hq) rfl rfl rfl rfl rfl⟩

theorem setRecord (c : Option ClaimRecord) : AtRegion r s (s.setRecord r c) :=
  ⟨rfl, rfl, le_max_right _ _, fun _ => id, fun _ hq => place_congr rfl rfl (pick_put_other _ _ hq) rfl rfl rfl rfl⟩

/-- A change of the claim table at the entries of the region alone. -/
theorem withTable {l : List TableEntry} (hlength : l.length ≤ max 16 s.claims.table.length)
    (hothers : ∀ q, q ≠ r → (l.filter fun e => e.region == q) = s.claims.table.filter fun e => e.region == q) :
    AtRegion r s { s with claims := { s.claims with table := l } } :=
  ⟨rfl, rfl, hlength, fun _ => id,
    fun q hq => place_congr rfl rfl rfl rfl rfl (congrArg (List.map TableEntry.claimant) (hothers q hq)) rfl⟩

/-- A change of the parked writes of the region alone. -/
theorem withParked {l : List ParkedWrite}
    (hothers : ∀ q, q ≠ r → (l.filter fun w => w.region == q) = s.parked.filter fun w => w.region == q) :
    AtRegion r s { s with parked := l } :=
  ⟨rfl, rfl, le_max_right _ _, fun _ => id, fun q hq => place_congr rfl rfl rfl rfl rfl rfl (hothers q hq)⟩

theorem clearTable : AtRegion r s (s.clearTable r) := by
  refine withTable s r (le_max_of_le_right (List.length_filter_le _ _)) fun q hq => ?_
  rw [List.filter_filter]
  refine List.filter_congr fun e _ => ?_
  by_cases he : e.region = q <;> simp [he, hq]

theorem removeClaimant (p : Station) : AtRegion r s (s.removeClaimant r p) := by
  refine withTable s r (le_max_of_le_right (List.length_filter_le _ _)) fun q hq => ?_
  rw [List.filter_filter]
  refine List.filter_congr fun e _ => ?_
  by_cases he : e.region = q <;> simp [he, hq]

theorem appendClaimant (p : Station) (hroom : s.claims.table.length < 16) : AtRegion r s (s.appendClaimant r p) := by
  refine withTable s r (by rw [List.length_append]; simp; omega) fun q hq => ?_
  simp [Ne.symm hq]

theorem dropParked : AtRegion r s (s.dropParked r) := by
  refine withParked s r fun q hq => ?_
  rw [List.filter_filter]
  refine List.filter_congr fun w _ => ?_
  by_cases hw : w.region = q <;> simp [hw, hq]

/-- Marks of the region cleared. -/
theorem clearMarks (p : Mark → Bool) (hp : ∀ q b, q ≠ r → p (.withdraw q b) = false) : AtRegion r s (s.clearMarks p) := by
  refine ⟨rfl, rfl, le_max_right _ _, fun _ => id, fun q hq => place_congr rfl rfl rfl ?_ rfl rfl rfl⟩
  exact any_isWithdraw_filter (fun b => by simp [hp q b hq]) _

theorem endRecordFrames : AtRegion r s (s.endRecordFrames r) :=
  ((s.fell_same _).at r).trans (clearMarks _ r _ fun q b hq => by simpa [Mark.ofRecord] using hq)

theorem freeRecord : AtRegion r s (s.freeRecord r) := (endRecordFrames s r).trans (setRecord _ r none)

theorem addSpan (a b : Offset) : AtRegion r s (s.addSpan r a b) := by
  unfold State.addSpan
  split
  · split <;> exact setPub s r _
  · exact (Same.refl s).at r

theorem unpublish : AtRegion r s (s.unpublish r) := by
  have h : Same (s.setPub r none) (s.unpublish r) := by
    refine Same.withFlight (s.setPub r none) rfl (takeOnLine_map
      (g := fun f => if f.job == .update r then { f with fallen := true } else f) rfl fun f => ?_)
    split <;> exact ⟨rfl, id⟩
  exact (setPub s r none).trans (h.at r)

/-- A WITHDRAW of the region handed over. -/
theorem handWithdraw (b : Bool) : AtRegion r s (s.hand (.withdraw r b)) := by
  rw [State.hand_handed]
  unfold handed
  split
  · exact (Same.refl s).at r
  · refine ⟨rfl, rfl, le_max_right _ _, takeOnLine_flight (handLine_flight _ _), fun q hq => place_congr rfl rfl rfl ?_ rfl rfl rfl⟩
    unfold handLine
    dsimp only
    split
    · rfl
    · simp [Mark.isWithdraw, Ne.symm hq]

end AtRegion

end Sys2Proof.Machine

/-! What each update leaves at its own region, and the law of ownership over the publish set and the directory. -/

namespace Sys2Proof.Machine

open Sys2Proof.Safety

/-! ### What an update leaves at its region -/

section

variable (s : State) (r : Region)

theorem State.setEntry_place (e : DirEntry) : (s.setEntry r e).place r = { s.place r with entry := e.plain } := by
  unfold State.place
  rw [State.setEntry_entry_same]
  rfl

theorem State.setServing_place (e : ServeEntry) :
    (s.setServing r e).place r = { s.place r with target := capturedTarget e.handover } := by
  unfold State.place
  rw [State.setServing_serving_same]
  rfl

theorem State.setPub_place (e : Option PubEntry) : (s.setPub r e).place r = { s.place r with pub := e } := by
  unfold State.place
  rw [State.setPub_pubEntry_same]
  rfl

theorem State.setRecord_place (c : Option ClaimRecord) : (s.setRecord r c).place r = { s.place r with recorded := c.isSome } := by
  unfold State.place
  rw [State.setRecord_record_same]
  rfl

theorem State.clearTable_place : (s.clearTable r).place r = { s.place r with claimants := [] } := by
  have h : (s.clearTable r).claimants r = [] := by simp [State.claimants, State.clearTable]
  unfold State.place
  rw [h]
  rfl

theorem State.removeClaimant_place (p : Station) :
    (s.removeClaimant r p).place r = { s.place r with claimants := (s.claimants r).filter fun q => q != p } := by
  have h : (s.removeClaimant r p).claimants r = (s.claimants r).filter fun q => q != p := by
    unfold State.claimants State.removeClaimant
    rw [List.filter_filter, List.filter_map, List.filter_filter]
    refine congrArg _ (List.filter_congr fun e _ => ?_)
    cases e.region == r <;> simp [bne]
  unfold State.place
  rw [h]
  rfl

theorem State.appendClaimant_place (p : Station) :
    (s.appendClaimant r p).place r = { s.place r with claimants := s.claimants r ++ [p] } := by
  have h : (s.appendClaimant r p).claimants r = s.claimants r ++ [p] := by simp [State.claimants, State.appendClaimant]
  unfold State.place
  rw [h]
  rfl

theorem State.dropParked_place : (s.dropParked r).place r = { s.place r with parked := [] } := by
  have h : (s.dropParked r).parkedFor r = [] := by simp [State.parkedFor, State.dropParked]
  unfold State.place
  rw [h]
  rfl

theorem State.endRecordFrames_place : (s.endRecordFrames r).place r = { s.place r with withdrawn := false } := by
  have h : (s.endRecordFrames r).line.marks.any (Mark.isWithdraw r) = false := by
    rw [List.any_eq_false]
    intro m hm hw
    have hkept := (List.mem_filter.1 hm).2
    cases m <;> simp_all [Mark.isWithdraw, Mark.ofRecord]
  unfold State.place
  rw [h]
  rfl

theorem State.freeRecord_place : (s.freeRecord r).place r = { s.place r with recorded := false, withdrawn := false } := by
  rw [State.freeRecord, State.setRecord_place, State.endRecordFrames_place]
  rfl

theorem State.unpublish_place : (s.unpublish r).place r = { s.place r with pub := none } := by
  have h : (s.unpublish r).pubEntry r = none := by rw [State.unpublish_pubEntry, if_pos rfl]
  unfold State.place
  rw [h]
  rfl

end

/-! ### The law at a place -/

namespace PlaceLaw

variable {own : Station} {x : Place}

/-- An unowned region is not published, has no queue and no captured HANDOVER. -/
theorem nothing (hx : PlaceLaw own x) (h : x.entry.role.owns = false) : x.pub = none ∧ x.claimants = [] ∧ x.target = none := by
  refine ⟨?_, ?_, ?_⟩
  · cases hpub : x.pub with
    | none => rfl
    | some e => simp [(hx.published e hpub).1, Role.owns] at h
  · by_contra hne
    simp [hx.claimants.2.2.2 hne] at h
  · cases htarget : x.target with
    | none => rfl
    | some p => simp [(hx.captured p htarget).1, Role.owns] at h

/-- An unowned region takes another entry of an unowned region. -/
theorem unowned (hx : PlaceLaw own x) (h : x.entry.role.owns = false) {e : DirEntry} (he : e.role.owns = false) (hrole : agrees own e)
    (hfresh : e.replica = .valid → e.staleAge = 0 ∧ e.repair = false) (hmarks : e.held = false ∧ e.tenure = .stopped) :
    PlaceLaw own { x with entry := e } := by
  obtain ⟨hpub, hclaimants, htarget⟩ := hx.nothing h
  refine ⟨hrole, fun ho => ?_, hfresh, fun _ => hmarks, fun e' he' => ?_, fun ho => ?_, ⟨?_, ?_, ?_, fun hne => ?_⟩, fun p hp => ?_, hx.parked⟩
  · rw [he] at ho; cases ho
  · rw [hpub] at he'; cases he'
  · rw [he] at ho; cases ho
  · exact hx.claimants.1
  · exact hx.claimants.2.1
  · exact hx.claimants.2.2.1
  · exact absurd hclaimants hne
  · rw [htarget] at hp; cases hp

/-- A region given away: its entry is that of an unowned region, and it is neither published nor queued for. -/
theorem given (hx : PlaceLaw own x) (h : x.entry.role.owns = true) {e : DirEntry} (he : e.role.owns = false) (hrole : agrees own e)
    (hfresh : e.replica = .valid → e.staleAge = 0 ∧ e.repair = false) (hmarks : e.held = false ∧ e.tenure = .stopped) :
    PlaceLaw own { x with entry := e, pub := none, claimants := [], target := none } := by
  refine ⟨hrole, fun ho => ?_, hfresh, fun _ => hmarks, fun _ h => ?_, fun ho => ?_, ⟨?_, ?_, ?_, ?_⟩, fun p hp => ?_, fun w hw => ?_⟩
  · rw [he] at ho; cases ho
  · cases h
  · rw [he] at ho; cases ho
  · exact Nat.zero_le _
  · exact List.nodup_nil
  · exact List.not_mem_nil
  · exact fun hne => absurd rfl hne
  · cases hp
  · have hrec := (hx.parked w hw).1
    rw [hx.records h] at hrec
    cases hrec

/-- An entry that differs in the held mark and the tenure timer of an owned region alone. -/
theorem remarked (hx : PlaceLaw own x) (h : x.entry.role.owns = true) (held : Bool) (tenure : Timer) :
    PlaceLaw own { x with entry := { x.entry with held := held, tenure := tenure } } where
  roles := hx.roles
  valid := hx.valid
  fresh := hx.fresh
  marks ho := absurd h (by simpa using ho)
  published := hx.published
  records := hx.records
  claimants := hx.claimants
  captured := hx.captured
  parked := hx.parked

/-- Fewer claimants of a region. -/
theorem fewer (hx : PlaceLaw own x) {l : List Station} (hl : l.Sublist x.claimants) : PlaceLaw own { x with claimants := l } where
  roles := hx.roles
  valid := hx.valid
  fresh := hx.fresh
  marks := hx.marks
  published := hx.published
  records := hx.records
  claimants := ⟨hl.length_le.trans hx.claimants.1, hl.nodup hx.claimants.2.1, fun h => hx.claimants.2.2.1 (hl.subset h),
    fun hne => hx.claimants.2.2.2 fun hnil => hne (List.sublist_nil.1 (hnil ▸ hl))⟩
  captured := hx.captured
  parked := hx.parked

/-- One claimant more at an owned region. -/
theorem queued (hx : PlaceLaw own x) (h : x.entry.role.owns = true) {p : Station} (hown : p ≠ own) (hp : p ∉ x.claimants)
    (hroom : x.claimants.length < 4) : PlaceLaw own { x with claimants := x.claimants ++ [p] } where
  roles := hx.roles
  valid := hx.valid
  fresh := hx.fresh
  marks := hx.marks
  published := hx.published
  records := hx.records
  claimants := by
    refine ⟨?_, ?_, ?_, fun _ => h⟩
    · simp; omega
    · exact List.nodup_append.2 ⟨hx.claimants.2.1, by simp, by simp; rintro a ha rfl; exact hp ha⟩
    · simp only [List.mem_append, List.mem_singleton, not_or]
      exact ⟨hx.claimants.2.2.1, Ne.symm hown⟩
  captured := hx.captured
  parked := hx.parked

end PlaceLaw

/-! ### Acts at a region that make no region owned and no record -/

theorem AtRegion.keeps {r : Region} {s t : State} (h : AtRegion r s t) (hs : OwnershipLaw s) {x : Place} (ht : t.place r = x)
    (hx : PlaceLaw s.ctl.ownId x) (hrecord : x.recorded = true → (s.place r).recorded = true)
    (hrole : x.entry.role.owns = true → (s.place r).entry.role.owns = true) : OwnershipLaw t := by
  subst ht
  exact h.owned hs hx (fun hr => .inl (hrecord hr)) fun ho => .inl (hrole ho)

theorem agrees_plain {own : Station} {e : DirEntry} (h : agrees own e) : agrees own e.plain := h

/-- An unowned region takes another entry of an unowned region. -/
theorem setEntry_owned {s : State} (hs : OwnershipLaw s) {r : Region} (h : (s.entry r).role.owns = false) {e : DirEntry}
    (he : e.role.owns = false) (hrole : agrees s.ctl.ownId e) (hfresh : e.replica = .valid → e.staleAge = 0 ∧ e.repair = false)
    (hmarks : e.held = false ∧ e.tenure = .stopped) : OwnershipLaw (s.setEntry r e) := by
  refine (AtRegion.setEntry s r e).keeps hs (s.setEntry_place r e) ((placeLaw_of hs r).unowned h he (agrees_plain hrole) hfresh hmarks)
    id fun ho => ?_
  change e.role.owns = true at ho
  rw [he] at ho
  cases ho

/-- The held mark and the tenure timer of an owned region. -/
theorem remark_owned {s : State} (hs : OwnershipLaw s) {r : Region} (h : (s.entry r).role.owns = true) (held : Bool) (tenure : Timer) :
    OwnershipLaw (s.setEntry r { s.entry r with held := held, tenure := tenure }) :=
  (AtRegion.setEntry s r _).keeps hs (s.setEntry_place r _) ((placeLaw_of hs r).remarked h held tenure) id fun _ => h

theorem setPub_owned {s : State} (hs : OwnershipLaw s) {r : Region} {e : Option PubEntry}
    (h : ∀ e', e = some e' → (s.entry r).role = .owner ∧ e'.low ≤ e'.high) : OwnershipLaw (s.setPub r e) :=
  (AtRegion.setPub s r e).keeps hs (s.setPub_place r e) { placeLaw_of hs r with published := h } id id

theorem publish_owned {s : State} (hs : OwnershipLaw s) {r : Region} (h : (s.entry r).role = .owner) {e : PubEntry}
    (he : e.low ≤ e.high) : OwnershipLaw (s.setPub r (some e)) :=
  setPub_owned hs fun e' h' => by cases h'; exact ⟨h, he⟩

theorem forRegions_owned {f : Region → State → State} (h : ∀ r s, OwnershipLaw s → OwnershipLaw (f r s)) {s : State}
    (hs : OwnershipLaw s) : OwnershipLaw (s.forRegions f) := State.forRegions_keeps h s hs

/-! ### The publish set -/

theorem State.additionMade_iff (s : State) (r : Region) : s.additionMade r = true ↔ (s.entry r).role = .owner ∧ s.pub.barred = false := by
  simp [State.additionMade]

theorem State.addSpan_owned {s : State} (hs : OwnershipLaw s) (r : Region) {a b : Offset} (hab : a ≤ b) : OwnershipLaw (s.addSpan r a b) := by
  unfold State.addSpan
  split
  · next h =>
    have hrole := ((s.additionMade_iff r).1 h).1
    split
    · exact publish_owned hs hrole hab
    · exact publish_owned hs hrole ((min_le_right _ _).trans (hab.trans (le_max_right _ _)))
  · exact hs

theorem State.addFull_owned {s : State} (hs : OwnershipLaw s) (r : Region) : OwnershipLaw (s.addFull r) := by
  unfold State.addFull
  split
  · next h =>
    have hrole := ((s.additionMade_iff r).1 h).1
    split
    · exact publish_owned hs hrole (by decide)
    · next e he => exact publish_owned hs hrole (hs.published r e he).2
  · exact hs

theorem State.addFullAll_owned {s : State} (hs : OwnershipLaw s) : OwnershipLaw s.addFullAll :=
  forRegions_owned (fun r _ h => State.addFull_owned h r) hs

/-! ### The directory -/

theorem State.hold_owned {s : State} (hs : OwnershipLaw s) {r : Region} (h : (s.entry r).role = .owner) : OwnershipLaw (s.hold r) :=
  remark_owned hs (by rw [h]; rfl) true (s.entry r).tenure

theorem State.serve_owned {s : State} (hs : OwnershipLaw s) (r : Region) : OwnershipLaw (s.serve r) := (s.serve_same r).owned hs

theorem State.unhold_owned {s : State} (hs : OwnershipLaw s) {r : Region} (h : (s.entry r).role = .owner) : OwnershipLaw (s.unhold r) :=
  State.serve_owned (remark_owned hs (by rw [h]; rfl) false (s.entry r).tenure) r

/-- A change of the handover state that captures nothing. -/
theorem setServing_owned {s : State} (hs : OwnershipLaw s) {r : Region} {e : ServeEntry} (he : capturedTarget e.handover = none) :
    OwnershipLaw (s.setServing r e) := by
  refine (AtRegion.setServing s r e).keeps hs (s.setServing_place r e) { placeLaw_of hs r with captured := fun p hp => ?_ } id id
  rw [he] at hp
  cases hp

theorem State.forceOut_owned {s : State} (hs : OwnershipLaw s) {r : Region} (h : (s.entry r).role = .owner) :
    OwnershipLaw (s.forceOut r) := by
  have hheld := remark_owned hs (show (s.entry r).role.owns = true by rw [h]; rfl) false (s.entry r).tenure
  unfold State.forceOut
  dsimp only
  have hforced : ∀ u : State, OwnershipLaw u → OwnershipLaw (u.setServing r { u.serving r with forced := true }) :=
    fun u hu => (Same.withServing (s := u) (r := r) (by exact rfl)).owned hu
  split
  · exact (State.requestRelease_same r _).owned (hforced _ hheld)
  · exact (State.serve_same r _).owned (hforced _ hheld)

theorem State.tenureExpires_owned {s : State} (hs : OwnershipLaw s) (r : Region) : OwnershipLaw (s.tenureExpires r) := by
  unfold State.tenureExpires
  split
  · next h =>
    refine State.serve_owned ?_ r
    by_cases ho : (s.entry r).role.owns = true
    · exact remark_owned hs ho (s.entry r).held .stopped
    · rw [(hs.marks r (by simpa using ho)).2] at h
      cases h
  · exact hs

theorem agrees_peer {own p : Station} (h : p ≠ own) {e : DirEntry} (hrole : e.role = .peer) (howner : e.owner = some p) : agrees own e := by
  unfold agrees
  rw [hrole]
  exact ⟨p, h, howner⟩

theorem agrees_orphan {own : Station} {e : DirEntry} (hrole : e.role = .orphan) (howner : e.owner = none) : agrees own e := by
  unfold agrees
  rw [hrole]
  exact howner

/-- A replica becomes STALE at an unowned region. -/
theorem State.markStale_owned {s : State} (hs : OwnershipLaw s) {r : Region} (h : (s.entry r).role.owns = false) (d : StaleDetail) :
    OwnershipLaw (s.markStale r d) := by
  have hstale : OwnershipLaw (s.setEntry r (s.entry r).makeStale) := by
    unfold DirEntry.makeStale
    split
    · exact setEntry_owned hs h h (hs.roles.roles r) (fun h => by cases h) (hs.marks r h)
    · exact setEntry_owned hs h h (hs.roles.roles r) (hs.fresh r) (hs.marks r h)
  unfold State.markStale
  dsimp only
  split
  · exact (State.notify_same _ _).owned hstale
  · exact hstale

theorem State.markValid_owned {s : State} (hs : OwnershipLaw s) {r : Region} (h : (s.entry r).role.owns = false) :
    OwnershipLaw (s.markValid r) :=
  setEntry_owned hs h h (hs.roles.roles r) (fun _ => ⟨rfl, rfl⟩) (hs.marks r h)

theorem State.follow_owned {s : State} (hs : OwnershipLaw s) {r : Region} (h : (s.entry r).role.owns = false) {p : Station}
    (hp : p ≠ s.ctl.ownId) (seq : Half) : OwnershipLaw (s.follow r p seq) :=
  setEntry_owned hs h rfl (agrees_peer hp rfl rfl) (fun _ => ⟨rfl, rfl⟩) (hs.marks r h)

/-- The owner and the role of an unowned region become those of a peer. -/
theorem peered_owned {s : State} (hs : OwnershipLaw s) {r : Region} (h : (s.entry r).role.owns = false) {p : Station}
    (hp : p ≠ s.ctl.ownId) (seq : Half) :
    OwnershipLaw (s.setEntry r { s.entry r with owner := some p, role := .peer, lastSeq := seq }) :=
  setEntry_owned hs h rfl (agrees_peer hp rfl rfl) (hs.fresh r) (hs.marks r h)

/-- An unowned region becomes an orphan. -/
theorem orphaned_owned {s : State} (hs : OwnershipLaw s) {r : Region} (h : (s.entry r).role.owns = false) (seq : Half) :
    OwnershipLaw (s.setEntry r { (s.entry r).orphaned with lastSeq := seq }) :=
  setEntry_owned hs h rfl (agrees_orphan rfl rfl) (hs.fresh r) ⟨rfl, rfl⟩

theorem State.scanRegion_owned {s : State} (hs : OwnershipLaw s) (r : Region) : OwnershipLaw (s.scanRegion r) := by
  unfold State.scanRegion
  split
  · next h =>
    have hsel : (s.entry r).role = .peer ∧ (s.entry r).replica = .stale := by
      unfold State.scanSelects at h
      simp only [Bool.and_eq_true, beq_iff_eq] at h
      exact h.1.1
    have hrole : (s.entry r).role.owns = false := by rw [hsel.1]; rfl
    have ha := (State.answer_same (.repair r) s).owned hs
    split
    · have hentry : (s.answer (.repair r)).entry r = s.entry r := by rw [State.answer_replied]; rfl
      refine setEntry_owned ha (by rw [hentry]; exact hrole) hrole ?_ (fun hv => ?_) (hs.marks r hrole)
      · rw [State.answer_replied]; exact hs.roles.roles r
      · change (s.entry r).replica = .valid at hv
        rw [hsel.2] at hv
        cases hv
    · exact ha
  · exact hs

/-! ### Expiries that change no more -/

theorem State.scanExpires_owned {s : State} (hs : OwnershipLaw s) : OwnershipLaw s.scanExpires := by
  unfold State.scanExpires
  split
  · have h : OwnershipLaw (s.forRegions State.scanRegion) := forRegions_owned (fun r _ h => State.scanRegion_owned h r) hs
    dsimp only
    generalize s.forRegions State.scanRegion = u at h ⊢
    exact (Same.withPub u (by exact rfl)).owned h
  · exact hs

theorem State.refreshExpires_owned {s : State} (hs : OwnershipLaw s) : OwnershipLaw s.refreshExpires := by
  unfold State.refreshExpires
  split
  · have h := State.addFullAll_owned hs
    dsimp only
    generalize s.addFullAll = u at h ⊢
    exact (Same.withPub u (by exact rfl)).owned h
  · exact hs

theorem State.presenceExpires_owned {s : State} (hs : OwnershipLaw s) : OwnershipLaw s.presenceExpires := by
  unfold State.presenceExpires
  split
  · exact (Same.withCtl s (by exact rfl)).owned hs
  · exact hs

theorem State.redirectExpires_owned {s : State} (hs : OwnershipLaw s) (r : Region) : OwnershipLaw (s.redirectExpires r) := by
  unfold State.redirectExpires
  split
  · exact (Same.withServing (s := s) (r := r) (by exact rfl)).owned hs
  · exact hs

theorem State.listenExpires_owned {s : State} (hs : OwnershipLaw s) : OwnershipLaw s.listenExpires := by
  unfold State.listenExpires
  split
  · refine (State.hand_same (fun _ => rfl) _).owned ((State.transition_same _ _ _).owned ?_)
    exact (Same.withCtl s (by exact rfl)).owned hs
  · exact hs

end Sys2Proof.Machine

/-! The law of ownership over the claim records and the parked writes. -/

namespace Sys2Proof.Machine

open Sys2Proof.Safety

/-! ### A claim that fails -/

/-- A record may end or close, and the parked writes of its region go with it. -/
theorem PlaceLaw.unparked {own : Station} {x : Place} (hx : PlaceLaw own x) {recorded : Bool} (withdrawn : Bool)
    (h : recorded = true → x.recorded = true) :
    PlaceLaw own { x with recorded := recorded, withdrawn := withdrawn, parked := [] } where
  roles := hx.roles
  valid := hx.valid
  fresh := hx.fresh
  marks := hx.marks
  published := hx.published
  records ho := by
    have hnone := hx.records ho
    simp only [← Bool.not_eq_true] at hnone ⊢
    exact fun hr => hnone (h hr)
  claimants := hx.claimants
  captured := hx.captured
  parked w hw := by cases hw

/-- A record of the region ended or closed, without the parked writes of the region. -/
structure Unparked (r : Region) (s t : State) : Prop where
  at_region : AtRegion r s t
  place : t.place r = { s.place r with recorded := (t.place r).recorded, withdrawn := (t.place r).withdrawn, parked := [] }
  record : (t.place r).recorded = true → (s.place r).recorded = true

theorem Unparked.owned {r : Region} {s t : State} (h : Unparked r s t) (hs : OwnershipLaw s) : OwnershipLaw t := by
  obtain ⟨hat, hplace, hrecord⟩ := h
  exact hat.keeps hs hplace ((placeLaw_of hs r).unparked _ hrecord) hrecord id

theorem failing_unparked (r : Region) (why : FailReason) (s : State) :
    AtRegion r s (failing r why s) ∧ (failing r why s).place r = { s.place r with withdrawn := false, parked := [] } := by
  have heq : failing r why s =
      ({ s.endRecordFrames r with cmd := noticed (failNotices r why s) s.ctl.ticks s.cmd } : State).dropParked r := by
    rw [State.endRecordFrames_eq]
    rfl
  have hcmd := Same.withCmd (s.endRecordFrames r) (noticed (failNotices r why s) s.ctl.ticks s.cmd)
  refine ⟨?_, ?_⟩
  · rw [heq]
    exact ((AtRegion.endRecordFrames s r).trans (hcmd.at r)).trans (AtRegion.dropParked _ r)
  · rw [heq, State.dropParked_place, hcmd.place, State.endRecordFrames_place]

theorem handWithdraw_place (s : State) (r : Region) (b : Bool) :
    (s.hand (.withdraw r b)).place r =
      { s.place r with withdrawn := (s.hand (.withdraw r b)).line.marks.any (Mark.isWithdraw r) } := by
  rw [State.hand_handed]
  rfl

theorem State.failRecord_unparked {r : Region} {why : FailReason} {c : ClaimRecord} {s : State} (hc : s.liveRecord r = some c) :
    Unparked r s (s.failRecord r why) := by
  have hrecorded : (s.place r).recorded = true := by
    have hlive := s.live_isSome r
    rw [hc] at hlive
    exact (Bool.and_eq_true_iff.1 hlive.symm).1
  obtain ⟨hat, hplace⟩ := failing_unparked r why s
  rw [State.failRecord_eq r why c s hc]
  split
  · refine ⟨(hat.trans (AtRegion.setRecord _ r _)).trans (AtRegion.handWithdraw _ r _), ?_, fun _ => hrecorded⟩
    rw [handWithdraw_place, State.setRecord_place, hplace]
  · split
    · refine ⟨(hat.trans (AtRegion.setRecord _ r _)).trans (AtRegion.handWithdraw _ r _), ?_, fun h => ?_⟩
      · rw [handWithdraw_place, State.setRecord_place, hplace]
      · rw [handWithdraw_place, State.setRecord_place] at h
        cases h
    · refine ⟨hat.trans (AtRegion.setRecord _ r _), ?_, fun h => ?_⟩
      · rw [State.setRecord_place, hplace]
      · rw [State.setRecord_place] at h
        cases h

theorem State.failRecord_owned {s : State} (hs : OwnershipLaw s) (r : Region) (why : FailReason) : OwnershipLaw (s.failRecord r why) := by
  cases hc : s.liveRecord r with
  | some c => exact (State.failRecord_unparked hc).owned hs
  | none => unfold State.failRecord; rw [hc]; exact hs

theorem State.exhaust_owned {s : State} (hs : OwnershipLaw s) (r : Region) : OwnershipLaw (s.exhaust r) := by
  unfold State.exhaust
  split
  · split
    · exact State.failRecord_owned hs r _
    · exact (s.toOrphanClaim_same r).owned hs
  · exact (s.toOrphanClaim_same r).owned hs

/-! ### A claim that is requested, and writes parked behind it -/

theorem claimTaken_cases {s : State} {r : Region} (h : s.claimTaken r = true) :
    (s.entry r).role.owns = false ∧ ((s.record r).isSome = true ∨ s.recordCount < 8) := by
  unfold State.claimTaken at h
  simp only [Bool.and_eq_true, Bool.not_eq_true', Bool.or_eq_true, decide_eq_true_eq] at h
  obtain ⟨⟨⟨-, hrole⟩, -⟩, hroom | hclosing⟩ := h
  · exact ⟨hrole, .inr hroom⟩
  · exact ⟨hrole, .inl (by unfold State.closing at hclosing; exact (Bool.and_eq_true_iff.1 hclosing).1)⟩

theorem State.requestClaim_place (s : State) (r : Region) (o : Origin) :
    (s.requestClaim r o).place r = { s.place r with recorded := true, withdrawn := false } := by
  unfold State.requestClaim
  rw [(State.needClaim_same r _).place, State.setRecord_place, State.freeRecord_place]
  rfl

theorem State.requestClaim_owned {s : State} (hs : OwnershipLaw s) {r : Region} (h : s.claimTaken r = true) (o : Origin) :
    OwnershipLaw (s.requestClaim r o) := by
  obtain ⟨hrole, hroom⟩ := claimTaken_cases h
  have hat : AtRegion r s (s.requestClaim r o) :=
    ((AtRegion.freeRecord s r).trans (AtRegion.setRecord _ r _)).trans ((State.needClaim_same r _).at r)
  have hplace := s.requestClaim_place r o
  have hx := placeLaw_of hs r
  refine hat.owned hs ?_ (fun _ => hroom) fun ho => .inl ?_
  · rw [hplace]
    refine { hx with records := fun ho => ?_, parked := fun w hw => ⟨rfl, rfl, (hx.parked w hw).2.2⟩ }
    change (s.entry r).role.owns = true at ho
    rw [hrole] at ho
    cases ho
  · exact (congrArg (fun x => x.entry.role.owns) hplace).symm.trans ho

theorem State.requestClaim_live (s : State) (r : Region) (o : Origin) : ((s.requestClaim r o).liveRecord r).isSome = true := by
  rw [State.live_isSome, State.requestClaim_place]
  rfl

/-- A write parked behind a live record of its region. -/
theorem State.park_owned {s : State} (hs : OwnershipLaw s) {r : Region} (hlive : (s.liveRecord r).isSome = true) {lanes : BitVec 4}
    (hlanes : (laneGroup lanes).isSome = true) (word : BitVec 13) (first len : Nat) (data : HostWord) :
    OwnershipLaw (s.park r word first len lanes data) := by
  have hat : AtRegion r s (s.park r word first len lanes data) := by
    refine AtRegion.withParked s r fun q hq => ?_
    simp [Ne.symm hq]
  have hplace : (s.park r word first len lanes data).place r = { s.place r with parked := s.parkedFor r ++
      [{ region := r, offset := toOffset (wordOffset word + first), length := len, data := data, lanes := lanes }] } := by
    have hparked : (s.park r word first len lanes data).parkedFor r = s.parkedFor r ++
        [{ region := r, offset := toOffset (wordOffset word + first), length := len, data := data, lanes := lanes }] := by
      simp [State.parkedFor, State.park]
    unfold State.place
    rw [hparked]
    rfl
  rw [State.live_isSome] at hlive
  simp only [Bool.and_eq_true, Bool.not_eq_true'] at hlive
  refine hat.keeps hs hplace { placeLaw_of hs r with parked := fun w hw => ?_ } id id
  obtain hw | hw := List.mem_append.1 hw
  · exact (placeLaw_of hs r).parked w hw
  · rw [List.mem_singleton.1 hw]
    exact ⟨hlive.1, hlive.2, hlanes⟩

theorem State.respond_same (s : State) (ok : Bool) (d : HostWord) : Same s (s.respond ok d) := Same.withPort s _
theorem State.setResult_same (s : State) (x : Result) : Same s (s.setResult x) := Same.withCmd s _

theorem State.parkWrite_owned {s : State} (hs : OwnershipLaw s) (r : Region) {lanes : BitVec 4} (hlanes : (laneGroup lanes).isSome = true)
    (word : BitVec 13) (first len : Nat) (data : HostWord) : OwnershipLaw (s.parkWrite r word first len lanes data) := by
  unfold State.parkWrite
  split
  · exact (s.respond_same _ _).owned hs
  · split
    · next hlive => exact (State.respond_same _ _ _).owned (State.park_owned hs hlive hlanes ..)
    · split
      · next h =>
        exact (State.respond_same _ _ _).owned
          (State.park_owned (State.requestClaim_owned hs h _) (s.requestClaim_live r _) hlanes ..)
      · exact (s.respond_same _ _).owned hs

theorem lanes_ne_zero {lanes : BitVec 4} (h : (laneGroup lanes).isSome = true) : lanes ≠ 0 := by
  rintro rfl
  cases h

theorem lanes_upward {lanes : BitVec 4} (h : (laneGroup lanes).isSome = true) : lowLane lanes ≤ highLane lanes ∧ highLane lanes < 4 := by
  obtain ⟨-, hhigh, -, hlt, hbetween⟩ := lane_bounds lanes (lanes_ne_zero h)
  exact ⟨(hbetween ⟨_, hlt⟩ hhigh).1, hlt⟩

theorem toOffset_le {a b : Nat} (hab : a ≤ b) (hb : b < 128) : toOffset a ≤ toOffset b := by
  have ha : a < 128 := by omega
  simpa [toOffset, Fin.le_def, Nat.mod_eq_of_lt ha, Nat.mod_eq_of_lt hb] using hab

theorem State.applyWrite_owned {s : State} (hs : OwnershipLaw s) (r : Region) {lanes : BitVec 4} (hlanes : (laneGroup lanes).isSome = true)
    (word : BitVec 13) (data : HostWord) : OwnershipLaw (s.applyWrite r word lanes data) := by
  have hword := wordOffset_lt word
  obtain ⟨hle, hlt⟩ := lanes_upward hlanes
  exact State.addSpan_owned ((Same.withImage s _).owned hs) r (toOffset_le (by omega) (by omega))

theorem State.windowWrite_owned {s : State} (hs : OwnershipLaw s) (word : BitVec 13) (lanes : BitVec 4) (data : HostWord) :
    OwnershipLaw (s.windowWrite word lanes data) := by
  have herror := (s.respond_same false 0).owned hs
  unfold State.windowWrite
  split
  · exact herror
  · split
    · next hlanes _ =>
      have hgroup : (laneGroup lanes).isSome = true := by rw [hlanes]; rfl
      split
      · exact herror
      · split
        · exact herror
        · split
          · exact herror
          · exact (State.respond_same _ _ _).owned (State.applyWrite_owned hs _ hgroup ..)
        · split
          · exact State.parkWrite_owned hs _ hgroup ..
          · exact herror
        · split
          · exact State.parkWrite_owned hs _ hgroup ..
          · exact herror
    · exact herror

theorem State.claimRegion_owned {s : State} (hs : OwnershipLaw s) (r : Region) : OwnershipLaw (s.claimRegion r) := by
  unfold State.claimRegion
  split
  · exact (s.setResult_same _).owned hs
  · split
    · next h => exact (State.setResult_same _ _).owned (State.requestClaim_owned hs h _)
    · exact (s.setResult_same _).owned hs

theorem State.withdrawClaim_owned {s : State} (hs : OwnershipLaw s) (r : Region) : OwnershipLaw (s.withdrawClaim r) := by
  unfold State.withdrawClaim
  split
  · exact (State.setResult_same _ _).owned (State.failRecord_owned hs r _)
  · exact (s.setResult_same _).owned hs

theorem State.takeHome_owned {s : State} (hs : OwnershipLaw s) : OwnershipLaw s.takeHome := by
  unfold State.takeHome
  split
  · next r rest _ _ =>
    have hleft : OwnershipLaw { s with ctl := { s.ctl with backlog := rest } } := (Same.withCtl s (by exact rfl)).owned hs
    dsimp only
    split
    · exact hleft
    · split
      · next h => exact State.requestClaim_owned hleft (by exact h) _
      · exact hs
  · exact hs

/-! ### A live record changed -/

theorem changed_same {s : State} {r : Region} {c : ClaimRecord} (hc : s.liveRecord r = some c) (d : ClaimRecord) :
    Same s (s.setRecord r (some d)) := Same.withRecord d (record_isSome hc)

theorem State.answerExpires_owned {s : State} (hs : OwnershipLaw s) (r : Region) : OwnershipLaw (s.answerExpires r) := by
  unfold State.answerExpires
  split
  · next hc =>
    split
    · split
      · exact (State.needClaim_same r _).owned ((changed_same hc _).owned hs)
      · exact State.exhaust_owned hs r
    · exact hs
  · exact hs

theorem State.patienceExpires_owned {s : State} (hs : OwnershipLaw s) (r : Region) : OwnershipLaw (s.patienceExpires r) := by
  unfold State.patienceExpires
  split
  · split
    · exact State.failRecord_owned hs r _
    · exact hs
  · exact hs

theorem State.orphanWaitExpires_owned {s : State} (hs : OwnershipLaw s) (r : Region) : OwnershipLaw (s.orphanWaitExpires r) := by
  unfold State.orphanWaitExpires
  split
  · next hc =>
    split
    · split
      · exact (State.hand_same (fun _ => rfl) _).owned ((changed_same hc _).owned hs)
      · split
        · exact (State.needClaim_same r _).owned ((changed_same hc _).owned hs)
        · exact State.failRecord_owned hs r _
      all_goals exact hs
    · exact hs
  · exact hs

theorem State.carryClaim_same (s : State) (f : Flight) (r : Region) : Same s (s.carryClaim f r) := by
  unfold State.carryClaim
  split
  · exact s.withdrawIfRoom_same r
  · split
    · next hc => dsimp only; split <;> exact changed_same hc _
    · exact s.withdrawIfRoom_same r

theorem State.dropClaim_owned {s : State} (hs : OwnershipLaw s) (f : Flight) (r : Region) : OwnershipLaw (s.dropClaim f r) := by
  unfold State.dropClaim
  split
  · exact hs
  · split
    · next c hc =>
      have hcounted := (changed_same hc c.countClaim).owned hs
      dsimp only
      split
      · split
        · exact (State.needClaim_same r _).owned hcounted
        · split
          · exact State.exhaust_owned hcounted r
          · exact State.failRecord_owned hcounted r _
      · exact hcounted
    · exact hs

theorem State.dropTake_same (s : State) (r : Region) : Same s (s.dropTake r) := by
  unfold State.dropTake
  split
  · next hc =>
    split
    · exact changed_same hc _
    · exact Same.refl s
  · exact Same.refl s

/-! ### A region granted -/

theorem State.addSpan_place (s : State) (r : Region) (a b : Offset) :
    (s.addSpan r a b).place r = { s.place r with pub := (s.addSpan r a b).pubEntry r } := by
  unfold State.addSpan
  split
  · split <;> rw [State.setPub_place, State.setPub_pubEntry_same]
  · rfl

/-- The lowest and the highest offset of parked writes, as offsets. -/
theorem parked_upward {w : ParkedWrite} {ws : List ParkedWrite} (h : ∀ v, v ∈ w :: ws → (laneGroup v.lanes).isSome = true) :
    toOffset (lowOf w ws) ≤ toOffset (highOf w ws) := by
  have hhigh (v : ParkedWrite) (hv : v ∈ w :: ws) : v.high < 128 := by
    have hbase := v.base_lt
    have hlane := (lanes_upward (h v hv)).2
    unfold ParkedWrite.high
    omega
  have hw : w.low ≤ w.high := Nat.add_le_add_left (lanes_upward (h w List.mem_cons_self)).1 _
  obtain ⟨-, hlow, -⟩ := foldl_min ParkedWrite.low ws w.low
  obtain ⟨htop, hmax, -⟩ := foldl_max ParkedWrite.high ws w.high
  refine toOffset_le (hlow.trans (hw.trans hmax)) ?_
  obtain heq | ⟨v, hv, heq⟩ := htop
  · exact (heq.trans_lt (hhigh w List.mem_cons_self) :)
  · exact (heq.trans_lt (hhigh v (List.mem_cons_of_mem _ hv)) :)

/-- The parked writes of a region applied: they leave the buffer, and their one span runs upward. -/
theorem State.applyParked_place (s : State) (r : Region) (hlanes : ∀ w, w ∈ s.parkedFor r → (laneGroup w.lanes).isSome = true) :
    AtRegion r s (s.applyParked r) ∧
      (s.applyParked r).place r = { s.place r with pub := (s.applyParked r).pubEntry r, parked := [] } ∧
      ((∀ e, s.pubEntry r = some e → (s.entry r).role = .owner ∧ e.low ≤ e.high) →
        ∀ e, (s.applyParked r).pubEntry r = some e → (s.entry r).role = .owner ∧ e.low ≤ e.high) := by
  unfold State.applyParked
  split
  · next hnil =>
    refine ⟨(Same.refl s).at r, ?_, id⟩
    unfold State.place
    rw [hnil]
  · next w ws hparked =>
    rw [hparked] at hlanes
    dsimp only
    generalize List.foldl _ s.image (w :: ws) = image
    have himage := Same.withImage s image
    refine ⟨((himage.at r).trans (AtRegion.dropParked _ r)).trans (AtRegion.addSpan _ r _ _), ?_, fun hpub e he => ?_⟩
    · rw [State.addSpan_place, State.dropParked_place, himage.place]
    · unfold State.addSpan at he
      split at he
      · next hmade =>
        have hrole : (s.entry r).role = .owner := ((State.additionMade_iff _ r).1 hmade).1
        have hup := parked_upward hlanes
        split at he
        · rw [State.setPub_pubEntry_same] at he
          cases he
          exact ⟨hrole, hup⟩
        · rw [State.setPub_pubEntry_same] at he
          cases he
          exact ⟨hrole, (min_le_right _ _).trans (hup.trans (le_max_right _ _))⟩
      · exact hpub e he

/-- A grant at a region that has come to be owned: its record ends, and its parked writes are applied. -/
theorem granted_owned {s u : State} {r : Region} (hs : OwnershipLaw s) (hat : AtRegion r s u)
    (hlaw : PlaceLaw s.ctl.ownId { u.place r with recorded := false, withdrawn := false, parked := [] })
    (htake : ¬TakeOnLine u r) (hlanes : ∀ w, w ∈ u.parkedFor r → (laneGroup w.lanes).isSome = true) (n : Notice) :
    OwnershipLaw (((u.freeRecord r).notify n).applyParked r) := by
  have hplace : ((u.freeRecord r).notify n).place r = { u.place r with recorded := false, withdrawn := false } := by
    rw [(State.notify_same n _).place, State.freeRecord_place]
  have hfree := ((AtRegion.freeRecord u r).trans ((State.notify_same n _).at r))
  have hparked : ((u.freeRecord r).notify n).parkedFor r = u.parkedFor r := congrArg Place.parked hplace
  obtain ⟨happly, hfinal, hpub⟩ := ((u.freeRecord r).notify n).applyParked_place r (by rw [hparked]; exact hlanes)
  rw [hplace] at hfinal
  have hrole : (((u.freeRecord r).notify n).entry r).role = (u.entry r).role := congrArg (fun x => x.entry.role) hplace
  have hentry : ((u.freeRecord r).notify n).pubEntry r = u.pubEntry r := congrArg Place.pub hplace
  rw [hrole, hentry] at hpub
  refine ((hat.trans hfree).trans happly).owned hs ?_ (fun hrec => ?_) fun _ => .inr fun ht => htake ((hfree.trans happly).take r ht)
  · rw [hfinal]
    exact { hlaw with published := hpub hlaw.published }
  · have hnone : ((((u.freeRecord r).notify n).applyParked r).record r).isSome = false := congrArg Place.recorded hfinal
    rw [hnone] at hrec
    cases hrec

end Sys2Proof.Machine

/-! The law of ownership where a region is gained, given away, or taken back. -/

namespace Sys2Proof.Machine

open Sys2Proof.Safety

/-! ### A region gained -/

theorem State.startTenure_at (s : State) (r : Region) (seq : Half) : AtRegion r s (s.startTenure r seq) :=
  (AtRegion.setEntry s r _).trans (AtRegion.setServing _ r _)

/-- The entry of a tenure that starts. -/
def tenureEntry (s : State) (r : Region) : DirEntry :=
  { (s.entry r).plain.makeValid with owner := some s.ctl.ownId, role := .owner, held := false
                                     tenure := Timer.startOrExpire s.ctl.config.tenureMs }

theorem State.startTenure_place (s : State) (r : Region) (seq : Half) :
    (s.startTenure r seq).place r = { s.place r with entry := tenureEntry s r } := by
  unfold State.startTenure
  dsimp only
  rw [State.setServing_place, State.setEntry_place]
  rfl

/-- A region that was not owned, its tenure started, its record ended and its parked writes applied. -/
theorem PlaceLaw.tenured {s : State} {r : Region} (hx : PlaceLaw s.ctl.ownId (s.place r)) (h : (s.entry r).role.owns = false)
    {l : List Station} (hlength : l.length ≤ 4) (hnodup : l.Nodup) (hown : s.ctl.ownId ∉ l) :
    PlaceLaw s.ctl.ownId { s.place r with
      entry := tenureEntry s r, claimants := l, recorded := false, withdrawn := false, parked := [] } := by
  obtain ⟨hpub, -, htarget⟩ := hx.nothing h
  refine ⟨rfl, fun _ => rfl, fun _ => ⟨rfl, rfl⟩, fun ho => ?_, fun e he => ?_, fun _ => rfl, ⟨hlength, hnodup, hown, fun _ => rfl⟩,
    fun p hp => ?_, fun w hw => ?_⟩
  · cases ho
  · rw [hpub] at he; cases he
  · rw [htarget] at hp; cases hp
  · cases hw

theorem State.applyParked_nil {s : State} {r : Region} (h : s.parkedFor r = []) : s.applyParked r = s := by
  unfold State.applyParked
  rw [h]

/-- A region whose tenure has started, with its queue seeded. -/
structure Started (r : Region) (s u : State) : Prop where
  at_region : AtRegion r s u
  place : u.place r = { s.place r with entry := tenureEntry s r, claimants := u.claimants r }
  length : (u.claimants r).length ≤ 4
  nodup : (u.claimants r).Nodup
  others : s.ctl.ownId ∉ u.claimants r

namespace Started

variable {r : Region} {s u : State}

/-- The grant of a live record, and the end of the claim where none is. -/
theorem granted (h : Started r s u) (hs : OwnershipLaw s) (hrole : (s.entry r).role.owns = false) (htake : ¬TakeOnLine s r) (n : Notice) :
    OwnershipLaw (((u.freeRecord r).notify n).applyParked r) := by
  refine granted_owned hs h.at_region ?_ (fun ht => htake (h.at_region.take r ht)) (fun w hw => ?_) n
  · rw [h.place]
    exact (placeLaw_of hs r).tenured hrole h.length h.nodup h.others
  · have hparked : u.parkedFor r = s.parkedFor r := congrArg Place.parked h.place
    rw [hparked] at hw
    exact ((placeLaw_of hs r).parked w hw).2.2

/-- Without a live record no write is parked. -/
theorem ended (h : Started r s u) (hs : OwnershipLaw s) (hrole : (s.entry r).role.owns = false) (htake : ¬TakeOnLine s r)
    (hlive : u.liveRecord r = none) (n : Notice) : OwnershipLaw ((u.freeRecord r).notify n) := by
  have hgranted := h.granted hs hrole htake n
  have hparked : u.parkedFor r = [] := by
    refine List.eq_nil_iff_forall_not_mem.2 fun w hw => ?_
    rw [show u.parkedFor r = s.parkedFor r from congrArg Place.parked h.place] at hw
    obtain ⟨hrec, hwd, -⟩ := (placeLaw_of hs r).parked w hw
    have hsome := u.live_isSome r
    rw [hlive, h.place] at hsome
    simp only [hrec, hwd] at hsome
    cases hsome
  rwa [State.applyParked_nil] at hgranted
  rw [← hparked]
  exact congrArg Place.parked (((State.notify_same n _).place r).trans (u.freeRecord_place r))

theorem byHandover (h : Started r s u) (hs : OwnershipLaw s) (hrole : (s.entry r).role.owns = false) (htake : ¬TakeOnLine s r)
    (src : Station) : OwnershipLaw (u.grantByHandover r src) := by
  unfold State.grantByHandover
  split
  · exact h.granted hs hrole htake _
  · next hlive => exact h.ended hs hrole htake hlive _

theorem byTake (h : Started r s u) (hs : OwnershipLaw s) (hrole : (s.entry r).role.owns = false) (htake : ¬TakeOnLine s r)
    (stale : Bool) : OwnershipLaw (u.grantByTake r stale) := by
  unfold State.grantByTake
  split
  · exact h.granted hs hrole htake _
  · next hlive => exact h.ended hs hrole htake hlive _

end Started

theorem State.goOn_owned {s : State} (hs : OwnershipLaw s) (r : Region) : OwnershipLaw (s.goOn r) := (s.goOn_same r).owned hs

theorem startTenure_noClaimants {s : State} (hs : OwnershipLaw s) {r : Region} (h : (s.entry r).role.owns = false) (seq : Half) :
    (s.startTenure r seq).claimants r = [] :=
  (congrArg Place.claimants (s.startTenure_place r seq)).trans ((placeLaw_of hs r).nothing h).2.1

theorem State.carryTake_owned {s : State} (hs : OwnershipLaw s) {r : Region} (hrole : (s.entry r).role.owns = false)
    (htake : s.transmitting = false) (seq : Half) (stale : Bool) : OwnershipLaw (s.carryTake r seq stale) := by
  have hnone := startTenure_noClaimants hs hrole seq
  refine State.goOn_owned (Started.byTake ⟨s.startTenure_at r seq, ?_, ?_, ?_, ?_⟩ hs hrole (silent_noTake htake r) stale) r
  · rw [hnone, State.startTenure_place]
    exact congrArg (fun l => { s.place r with entry := tenureEntry s r, claimants := l }) ((placeLaw_of hs r).nothing hrole).2.1
  · rw [hnone]; exact Nat.zero_le _
  · rw [hnone]; exact List.nodup_nil
  · rw [hnone]; exact List.not_mem_nil

/-! ### The queue seeded -/

/-- The queue of a region with at most `n` claimants more, none of them twice and none the station itself. -/
structure QueueSeeded (r : Region) (n : Nat) (s t : State) : Prop where
  at_region : AtRegion r s t
  place : t.place r = { s.place r with claimants := t.claimants r }
  length : (t.claimants r).length ≤ (s.claimants r).length + n
  distinct : (s.claimants r).Nodup → (t.claimants r).Nodup
  others : s.ctl.ownId ∉ s.claimants r → s.ctl.ownId ∉ t.claimants r

theorem Same.queueSeeded {s t : State} (h : Same s t) (r : Region) (n : Nat) : QueueSeeded r n s t := by
  have hclaimants : t.claimants r = s.claimants r := congrArg Place.claimants (h.place r)
  refine ⟨h.at r, ?_, by rw [hclaimants]; omega, by rw [hclaimants]; exact id, by rw [hclaimants]; exact id⟩
  rw [h.place, hclaimants]
  rfl

theorem QueueSeeded.trans {r : Region} {m n : Nat} {s t u : State} (h : QueueSeeded r m s t) (g : QueueSeeded r n t u) : QueueSeeded r (m + n) s u := by
  refine ⟨h.at_region.trans g.at_region, ?_, ?_, g.distinct ∘ h.distinct, fun hs => ?_⟩
  · rw [g.place, h.place]
  · have h1 := h.length; have h2 := g.length; omega
  · have ht := g.others
    rw [h.at_region.own] at ht
    exact ht (h.others hs)

theorem State.seedOne_queue (r : Region) (b : Byte) (s : State) : QueueSeeded r 1 s (s.seedOne r b) := by
  unfold State.seedOne
  split
  · exact (Same.refl s).queueSeeded r 1
  · next q _ =>
    split
    · exact (Same.refl s).queueSeeded r 1
    · next hnot =>
      simp only [not_or] at hnot
      obtain ⟨hown, -, hnew⟩ := hnot
      split
      · next hroom =>
        have hclaimants : (s.appendClaimant r q).claimants r = s.claimants r ++ [q] :=
          congrArg Place.claimants (s.appendClaimant_place r q)
        refine ⟨AtRegion.appendClaimant s r q hroom, ?_, ?_, ?_, ?_⟩
        · rw [hclaimants, State.appendClaimant_place]
        · rw [hclaimants, List.length_append]; exact le_rfl
        · rw [hclaimants]
          exact fun hn => List.nodup_append.2 ⟨hn, by simp, by simp; rintro a ha rfl; exact hnew ha⟩
        · rw [hclaimants]
          simp only [List.mem_append, List.mem_singleton, not_or]
          exact fun hs => ⟨hs, Ne.symm hown⟩
      · split
        · exact (State.answer_same _ s).queueSeeded r 1
        · exact (State.answer_same _ s).queueSeeded r 1
        all_goals exact (Same.refl s).queueSeeded r 1

theorem State.seed_queue (r : Region) (ids : List Byte) (s : State) : QueueSeeded r ids.length s (s.seed r ids) := by
  induction ids generalizing s with
  | nil => exact (Same.refl s).queueSeeded r 0
  | cons b ids ih =>
    have h := (s.seedOne_queue r b).trans (ih (s.seedOne r b))
    rwa [Nat.add_comm] at h

theorem State.gainRegion_owned {s : State} (hs : OwnershipLaw s) {r : Region} (hrole : (s.entry r).role.owns = false)
    (htake : s.transmitting = false) (src : Station) (seq : Half) {ids : List Byte} (hids : ids.length ≤ 3) (content : Vector Byte 128) :
    OwnershipLaw (s.gainRegion r src seq ids content) := by
  have himage := (Same.withImage s (writeRegion s.image r content)).owned hs
  unfold State.gainRegion
  dsimp only
  generalize hu : ({ s with image := writeRegion s.image r content } : State) = u at himage ⊢
  have hurole : (u.entry r).role.owns = false := by rw [← hu]; exact hrole
  have hutake : u.transmitting = false := by rw [← hu]; exact htake
  have hnone := startTenure_noClaimants himage hurole seq
  have hseed := (u.startTenure r seq).seed_queue r ids
  refine State.goOn_owned (Started.byHandover ⟨(u.startTenure_at r seq).trans hseed.at_region, ?_, ?_, ?_, ?_⟩ himage hurole
    (silent_noTake hutake r) src) r
  · rw [hseed.place, State.startTenure_place]
  · have hlength := hseed.length
    rw [hnone, List.length_nil] at hlength
    omega
  · exact hseed.distinct (by rw [hnone]; exact List.nodup_nil)
  · have hothers := hseed.others
    rw [(u.startTenure_at r seq).own] at hothers
    exact hothers (by rw [hnone]; exact List.not_mem_nil)

/-! ### A region given away -/

theorem State.yieldRegion_owned {s : State} (hs : OwnershipLaw s) {r : Region} (h : (s.entry r).role.owns = true) {rival : Station}
    (hrival : rival ≠ s.ctl.ownId) (seq : Option Half) : OwnershipLaw (s.yieldRegion r rival seq) := by
  unfold State.yieldRegion
  dsimp only
  refine (State.notify_same _ _).owned ((State.notify_same _ _).owned ((State.refuseAll_same ..).owned ?_))
  have hmarks : ∀ u : State, Same u (u.clearMarks fun m => m == .handover r || m == .release r) := fun u =>
    u.clearMarks_same fun q m hm => by cases m <;> simp_all [Mark.isWithdraw]
  refine AtRegion.keeps (r := r) ?_ hs ?_
    ((placeLaw_of hs r).given h
      (e := DirEntry.plain { s.entry r with owner := some rival, role := .peer, replica := .stale, staleAge := 0, held := false
                                            tenure := .stopped })
      rfl (agrees_peer hrival rfl rfl) (fun hv => by cases hv) ⟨rfl, rfl⟩) id fun _ => h
  · exact ((((AtRegion.setEntry s r _).trans (AtRegion.setServing _ r _)).trans (AtRegion.unpublish _ r)).trans
      (((State.fell_same _ _).trans (hmarks _)).at r)).trans (AtRegion.clearTable _ r)
  · rw [State.clearTable_place, (hmarks _).place, (State.fell_same _ _).place, State.unpublish_place, State.setServing_place,
      State.setEntry_place]
    rfl

theorem State.winConflict_owned {s : State} (hs : OwnershipLaw s) (r : Region) (rival : Station) : OwnershipLaw (s.winConflict r rival) :=
  (State.notify_same _ _).owned (State.addFull_owned hs r)

theorem State.meetRival_owned {s : State} (hs : OwnershipLaw s) {r : Region} (h : (s.entry r).role.owns = true) {rival : Station}
    (hrival : rival ≠ s.ctl.ownId) (seq : Option Half) : OwnershipLaw (s.meetRival r rival seq) := by
  unfold State.meetRival
  split
  · exact State.winConflict_owned hs r rival
  · exact State.yieldRegion_owned hs h hrival seq

theorem State.carryHandover_owned {s : State} (hs : OwnershipLaw s) (f : Flight) (r : Region) (seq : Half) :
    OwnershipLaw (s.carryHandover f r seq) := by
  unfold State.carryHandover
  split
  · next target list _ hcaptured =>
    obtain ⟨hhanding, htarget⟩ := (placeLaw_of hs r).captured target (capturedTarget_iff.2 ⟨list, hcaptured⟩)
    have howns : (s.place r).entry.role.owns = true := by rw [hhanding]; rfl
    have hpub : (s.place r).pub = none := by
      cases hentry : (s.place r).pub with
      | none => rfl
      | some e => rw [((placeLaw_of hs r).published e hentry).1] at hhanding; cases hhanding
    dsimp only
    refine (State.notify_same _ _).owned ?_
    refine AtRegion.keeps (r := r) ?_ hs ?_
      ((placeLaw_of hs r).given howns
        (e := DirEntry.plain { s.entry r with owner := some target, role := .peer, held := false, tenure := .stopped })
        rfl (agrees_peer htarget rfl rfl) ((placeLaw_of hs r).fresh) ⟨rfl, rfl⟩) id fun _ => howns
    · exact (((AtRegion.setEntry s r _).trans (AtRegion.clearTable _ r)).trans ((State.refuseAll_same ..).at r)).trans
        (AtRegion.setServing _ r _)
    · rw [State.setServing_place, (State.refuseAll_same ..).place, State.clearTable_place, State.setEntry_place]
      dsimp only
      rw [hpub]
      rfl
  · exact hs

/-- At an OWNER region no HANDOVER is captured. -/
theorem PlaceLaw.uncaptured {own : Station} {x : Place} (hx : PlaceLaw own x) (h : x.entry.role = .owner) : x.target = none := by
  cases htarget : x.target with
  | none => rfl
  | some p => rw [(hx.captured p htarget).1] at h; cases h

theorem State.carryRelease_owned {s : State} (hs : OwnershipLaw s) (f : Flight) (r : Region) (seq : Half) :
    OwnershipLaw (s.carryRelease f r seq) := by
  unfold State.carryRelease
  split
  · next h =>
    have hrole : (s.place r).entry.role = .owner := h.2
    have howns : (s.place r).entry.role.owns = true := by rw [hrole]; rfl
    have htarget := (placeLaw_of hs r).uncaptured hrole
    dsimp only
    refine (State.notify_same _ _).owned ((State.refuseAll_same ..).owned ?_)
    refine AtRegion.keeps (r := r) ?_ hs ?_
      ((placeLaw_of hs r).given howns (e := DirEntry.plain (s.entry r).makeValid.orphaned)
        rfl (agrees_orphan rfl rfl) (fun _ => ⟨rfl, rfl⟩) ⟨rfl, rfl⟩) id fun _ => howns
    · exact (((AtRegion.setEntry s r _).trans (AtRegion.setServing _ r _)).trans (AtRegion.unpublish _ r)).trans (AtRegion.clearTable _ r)
    · rw [State.clearTable_place, State.unpublish_place, State.setServing_place, State.setEntry_place]
      exact congrArg (fun p => { s.place r with
        entry := DirEntry.plain (s.entry r).makeValid.orphaned, pub := none, claimants := [], target := p }) htarget
  · exact hs

/-! ### A region taken back -/

theorem returned_swap (s : State) (r : Region) : (s.returnToOwner r).handoverIdle r = (s.handoverIdle r).returnToOwner r := by
  unfold State.returnToOwner State.handoverIdle
  rw [State.setServing_entry]
  split
  · rw [State.addFull_added, State.addFull_added]
    rfl
  · rfl

theorem State.handoverIdle_owned {s : State} (hs : OwnershipLaw s) (r : Region) : OwnershipLaw (s.handoverIdle r) :=
  setServing_owned hs rfl

theorem State.handoverIdle_target (s : State) (r : Region) : ((s.handoverIdle r).place r).target = none := by
  rw [State.handoverIdle, State.setServing_place]
  rfl

theorem State.returnToOwner_owned {s : State} (hs : OwnershipLaw s) {r : Region} (htarget : (s.place r).target = none) :
    OwnershipLaw (s.returnToOwner r) := by
  unfold State.returnToOwner
  split
  · next hrole =>
    have hx := placeLaw_of hs r
    have howns : (s.entry r).role.owns = true := by rw [hrole]; rfl
    have hagrees : (s.entry r).owner = some s.ctl.ownId := by
      have h := hs.roles.roles r
      unfold agrees at h
      rwa [hrole] at h
    refine State.addFull_owned ((AtRegion.setEntry s r { s.entry r with role := .owner }).keeps hs (s.setEntry_place r _) ?_ id fun _ => howns) r
    refine { hx with roles := hagrees, valid := fun _ => hx.valid howns, marks := fun ho => ?_, published := fun e he => ?_,
                     records := fun _ => hx.records howns, claimants := ?_, captured := fun p hp => ?_ }
    · cases ho
    · have hcontra : (s.entry r).role = .owner := (hx.published e he).1
      rw [hrole] at hcontra
      cases hcontra
    · obtain ⟨hlength, hnodup, hown, -⟩ := hx.claimants
      exact ⟨hlength, hnodup, hown, fun _ => rfl⟩
    · have hp : (s.place r).target = some p := hp
      rw [htarget] at hp
      cases hp
  · exact hs

theorem returned_owned {s : State} (hs : OwnershipLaw s) (r : Region) : OwnershipLaw ((s.returnToOwner r).handoverIdle r) := by
  rw [returned_swap]
  exact State.returnToOwner_owned (State.handoverIdle_owned hs r) (s.handoverIdle_target r)

theorem State.removeClaimant_owned {s : State} (hs : OwnershipLaw s) (r : Region) (p : Station) : OwnershipLaw (s.removeClaimant r p) :=
  (AtRegion.removeClaimant s r p).keeps hs (s.removeClaimant_place r p) ((placeLaw_of hs r).fewer List.filter_sublist) id id

theorem State.dropHandover_owned {s : State} (hs : OwnershipLaw s) (f : Flight) (r : Region) : OwnershipLaw (s.dropHandover f r) := by
  unfold State.dropHandover
  split
  · exact State.goOn_owned (returned_owned hs r) r
  · exact hs

theorem State.endFlight_owned {s : State} (hs : OwnershipLaw s) : OwnershipLaw s.endFlight := s.endFlight_same.owned hs

theorem State.withdrawHandover_owned {s : State} (hs : OwnershipLaw s) (r : Region) (target : Station) :
    OwnershipLaw (s.withdrawHandover r target) :=
  State.goOn_owned (returned_owned (State.removeClaimant_owned (State.endFlight_owned hs) r target) r) r

theorem State.dropRelease_same (s : State) (f : Flight) (r : Region) : Same s (s.dropRelease f r) := by
  unfold State.dropRelease
  split
  · exact Same.refl s
  · dsimp only
    split
    · exact (s.releaseIdle_same r).trans (State.requestRelease_same r _)
    · exact (s.releaseIdle_same r).trans (State.serve_same r _)

theorem State.carryUpdate_same (s : State) (f : Flight) (r : Region) (seq : Half) : Same s (s.carryUpdate f r seq) := by
  unfold State.carryUpdate
  split
  · exact Same.withEntry s (by exact rfl)
  · exact Same.refl s

end Sys2Proof.Machine

/-! The law of ownership over the acts of the whole station: resets, the tick, the entry to ISOLATED and OFFLINE, and leaving. -/

namespace Sys2Proof.Machine

open Sys2Proof.Safety

/-- An unowned region with nothing published, queued, captured or parked. -/
theorem placeLaw_idle {own : Station} {x : Place} (hrole : x.entry.role.owns = false) (hagrees : agrees own x.entry)
    (hfresh : x.entry.replica = .valid → x.entry.staleAge = 0 ∧ x.entry.repair = false)
    (hmarks : x.entry.held = false ∧ x.entry.tenure = .stopped) (hpub : x.pub = none) (hclaimants : x.claimants = [])
    (htarget : x.target = none) (hparked : x.parked = []) : PlaceLaw own x := by
  obtain ⟨entry, pub, recorded, withdrawn, target, claimants, parked⟩ := x
  dsimp only at *
  subst hpub hclaimants htarget hparked
  refine ⟨hagrees, fun ho => ?_, hfresh, fun _ => hmarks, fun e he => ?_, fun ho => ?_, ⟨?_, ?_, ?_, ?_⟩, fun p hp => ?_, fun w hw => ?_⟩
  · rw [hrole] at ho; cases ho
  · cases he
  · rw [hrole] at ho; cases ho
  · exact Nat.zero_le _
  · exact List.nodup_nil
  · exact List.not_mem_nil
  · exact fun hne => absurd rfl hne
  · cases hp
  · cases hw

theorem claimants_nil {s : State} (h : s.claims.table = []) (r : Region) : s.claimants r = [] := by
  rw [State.claimants, h]
  rfl

theorem parkedFor_nil {s : State} (h : s.parked = []) (r : Region) : s.parkedFor r = [] := by
  rw [State.parkedFor, h]
  rfl

/-! ### Reset -/

/-- A station with its directory, publish set, claims, roster and line at their reset values. -/
theorem ownershipLaw_cleared {t : State} (hdir : t.dir = State.reset.dir) (hset : t.pub.set = State.reset.pub.set)
    (hclaims : t.claims = ClaimEngine.reset) (hroster : t.roster = State.reset.roster) (hparked : t.parked = [])
    (hline : t.line = LineUnit.reset) : OwnershipLaw t := by
  have hentry (r : Region) : t.entry r = DirEntry.reset := by rw [State.entry, hdir]; exact State.reset_entry r
  have hpub (r : Region) : t.pubEntry r = none := by rw [State.pubEntry, hset]; exact State.reset_pubEntry r
  have hrecord (r : Region) : t.record r = none := by rw [State.record, hclaims]; exact State.reset_record r
  have hserving (r : Region) : t.serving r = ServeEntry.reset := by rw [State.serving, hclaims]; exact State.reset_serving r
  have htable : t.claims.table = [] := by rw [hclaims]; rfl
  refine (ownershipLaw_iff t).2 ⟨fun r => ?_, ?_, by rw [htable]; exact Nat.zero_le _, ?_, fun r ht => ?_⟩
  · have hplain : (t.place r).entry = DirEntry.reset := by
      unfold State.place
      rw [hentry]
      rfl
    refine placeLaw_idle ?_ ?_ ?_ ?_ (hpub r) (claimants_nil htable r) ?_ (parkedFor_nil hparked r)
    · rw [hplain]; rfl
    · rw [hplain]; exact agrees_orphan rfl rfl
    · rw [hplain]; exact fun hv => by cases hv
    · rw [hplain]; exact ⟨rfl, rfl⟩
    · unfold State.place
      rw [hserving]
      rfl
  · exact (recordCount_le (s := State.reset) fun r hr => by rw [hrecord] at hr; cases hr).trans (by rw [State.reset_recordCount]; decide)
  · rw [State.peer, hroster]
    exact State.reset_peer _
  · obtain ⟨f, hf, -⟩ := ht
    rw [hline] at hf
    cases hf

theorem State.pinReset_owned (s : State) : OwnershipLaw s.pinReset := ownershipLaw_cleared rfl rfl rfl rfl rfl rfl

theorem State.leavePinReset_owned {s : State} (hs : OwnershipLaw s) (straps : Station) : OwnershipLaw (s.leavePinReset straps) := by
  unfold State.leavePinReset
  split
  · exact hs
  · exact ownershipLaw_cleared rfl rfl rfl rfl rfl rfl

theorem State.restart_owned (s : State) (straps : Station) : OwnershipLaw (s.restart straps) :=
  ownershipLaw_cleared rfl rfl rfl rfl rfl rfl

theorem State.restartStation_owned {s : State} (hs : OwnershipLaw s) (straps : Station) : OwnershipLaw (s.restartStation straps) := by
  unfold State.restartStation
  split
  · exact s.restart_owned straps
  · exact s.restart_owned straps
  · exact s.restart_owned straps
  all_goals exact (s.setResult_same _).owned hs

theorem State.clearingEnds_owned {s : State} (hs : OwnershipLaw s) : OwnershipLaw s.clearingEnds := by
  unfold State.clearingEnds
  split
  · exact (State.transition_same _ _ s).owned hs
  · exact hs

/-! ### The tick -/

theorem PlaceLaw.ticked {own : Station} {x : Place} (hx : PlaceLaw own x) (receiving : Bool) :
    PlaceLaw own { x with entry := x.entry.tick receiving } where
  roles := hx.roles
  valid := hx.valid
  fresh hv := by
    have hvalid : x.entry.replica = .valid := hv
    obtain ⟨hage, hrepair⟩ := hx.fresh hvalid
    refine ⟨?_, hrepair⟩
    simp [DirEntry.tick, hvalid, hage]
  marks ho := by
    obtain ⟨hheld, htenure⟩ := hx.marks ho
    refine ⟨hheld, ?_⟩
    simp [DirEntry.tick, htenure, Timer.tick]
  published := hx.published
  records := hx.records
  claimants := hx.claimants
  captured := hx.captured
  parked := hx.parked

theorem tick_place {s : State} (hn : s.port.nrstHigh = true) (r : Region) :
    s.tick.place r = { s.place r with entry := (s.place r).entry.tick s.ctl.mode.receives } := by
  have hentry : s.tick.entry r = (s.entry r).tick s.ctl.mode.receives := by
    rw [State.tick_running hn]
    exact pick_map _ _ _
  have hrecord : (s.tick.record r).isSome = (s.record r).isSome := by
    rw [State.tick_running hn]
    exact (congrArg Option.isSome (pick_map _ _ _)).trans Option.isSome_map
  have hserving : (s.tick.serving r).handover = (s.serving r).handover := by
    have hpick : s.tick.serving r = { s.serving r with redirect := (s.serving r).redirect.tick } := by
      rw [State.tick_running hn]
      exact pick_map _ _ _
    rw [hpick]
  unfold State.place
  rw [hentry, hrecord, hserving, State.tick_running hn]
  rfl

theorem State.tick_owned {s : State} (hs : OwnershipLaw s) : OwnershipLaw s.tick := by
  cases hn : s.port.nrstHigh with
  | false => rw [show s.tick = s from if_neg (by simp [hn])]; exact hs
  | true =>
    obtain ⟨hp, hcount, hlength, hroster, htake⟩ := (ownershipLaw_iff s).1 hs
    have hown : s.tick.ctl.ownId = s.ctl.ownId := by rw [State.tick_running hn]
    refine (ownershipLaw_iff s.tick).2 ⟨fun r => ?_, ?_, ?_, ?_, fun r ht => ?_⟩
    · rw [hown, tick_place hn]
      exact (hp r).ticked _
    · exact (recordCount_le fun r hr => (congrArg Place.recorded (tick_place hn r)).symm.trans hr).trans hcount
    · rw [State.tick_running hn]
      exact hlength
    · have hpeer : s.tick.peer s.ctl.ownId = { s.peer s.ctl.ownId with silence := (s.peer s.ctl.ownId).silence.tick } := by
        rw [State.tick_running hn]
        exact pick_map _ _ _
      rw [hown, hpeer, hroster]
      rfl
    · have hrole : (s.tick.entry r).role = (s.entry r).role := congrArg (fun x => x.entry.role) (tick_place hn r)
      rw [hrole]
      exact htake r (takeOnLine_flight (by rw [State.tick_running hn]) r ht)

/-! ### Going down -/

theorem wentDown_owned {m : Mode} {why : Cause} {lost : LostDetail} {s t : State} (h : WentDown m why lost s t) (hs : OwnershipLaw s) :
    OwnershipLaw t := by
  obtain ⟨hclaims, htable⟩ := h.claims
  have hown : t.ctl.ownId = s.ctl.ownId := by rw [h.ctl]
  have hparked : t.parked = [] := by
    rw [h.parked, List.filter_eq_nil_iff]
    intro w hw
    have hlive := (hs.parked w hw).1
    cases hc : s.liveRecord w.region <;> simp_all
  have hentry (r : Region) : (t.entry r).role.owns = false ∧ agrees s.ctl.ownId (t.entry r) ∧
      ((t.entry r).replica = .valid → (t.entry r).staleAge = 0 ∧ (t.entry r).repair = false) ∧
      (t.entry r).held = false ∧ (t.entry r).tenure = .stopped := by
    cases ho : (s.entry r).role.owns with
    | true => rw [h.owned r ho]; exact ⟨rfl, agrees_orphan rfl rfl, hs.fresh r, rfl, rfl⟩
    | false => rw [h.others r ho]; exact ⟨ho, hs.roles.roles r, hs.fresh r, hs.marks r ho⟩
  refine (ownershipLaw_iff t).2 ⟨fun r => ?_, ?_, by rw [htable]; exact Nat.zero_le _, ?_, fun r _ => (hentry r).1⟩
  · obtain ⟨hrole, hagrees, hfresh, hmarks⟩ := hentry r
    rw [hown]
    refine placeLaw_idle hrole (agrees_plain hagrees) hfresh hmarks (h.pub.1 r) (claimants_nil htable r) ?_ (parkedFor_nil hparked r)
    unfold State.place
    rw [(hclaims r).2]
    rfl
  · exact (recordCount_le (s := s) fun r hr => by rw [(hclaims r).1] at hr; cases hr).trans hs.records.1
  · rw [hown, h.roster, hs.roles.roster]
    rfl

theorem State.isolate_owned {s : State} (hs : OwnershipLaw s) (c : Cause) : OwnershipLaw (s.isolate c) :=
  wentDown_owned (State.goDown_down _ _ _ s) hs

theorem State.goOffline_owned {s : State} (hs : OwnershipLaw s) : OwnershipLaw s.goOffline :=
  wentDown_owned (State.goDown_down _ _ _ s) hs

theorem State.clash_owned {s : State} (hs : OwnershipLaw s) : OwnershipLaw s.clash := by
  unfold State.clash
  split
  · exact wentDown_owned (State.goDown_down _ _ _ s) hs
  · exact wentDown_owned (State.goDown_down _ _ _ s) hs
  · exact s.isolate_owned hs _
  · exact s.isolate_owned hs _
  all_goals exact hs

/-! ### Leaving -/

theorem queueLeave_place (s : State) (r : Region) : s.queueLeave.place r =
    { s.place r with pub := none, recorded := (s.liveRecord r).isSome, withdrawn := false } := by
  have hentry : (s.queueLeave.entry r).plain = (s.entry r).plain := by
    rw [State.queueLeave_entry]
    split <;> rfl
  have htarget : capturedTarget (s.queueLeave.serving r).handover = capturedTarget (s.serving r).handover := by
    have hserving : s.queueLeave.serving r =
        if (s.serving r).handover = .queued ∧ s.waiting (.handover r) then { s.serving r with handover := .idle } else s.serving r :=
      pick_ofFn _ _
    rw [hserving]
    split
    · next h => rw [h.1]; rfl
    · rfl
  have hmarks : s.queueLeave.line.marks = [] := by rw [State.queueLeave_line]
  unfold State.place
  rw [hentry, htarget, hmarks, State.queueLeave_pubEntry, State.queueLeave_record]
  unfold State.queueLeave
  rfl

theorem State.queueLeave_owned {s : State} (hs : OwnershipLaw s) : OwnershipLaw s.queueLeave := by
  obtain ⟨hp, hcount, hlength, hroster, htake⟩ := (ownershipLaw_iff s).1 hs
  have hlive (r : Region) (h : (s.liveRecord r).isSome = true) : (s.record r).isSome = true := by
    rw [State.live_isSome] at h
    exact (Bool.and_eq_true_iff.1 h).1
  have hown : s.queueLeave.ctl.ownId = s.ctl.ownId := by rw [State.queueLeave_ctl]
  refine (ownershipLaw_iff s.queueLeave).2 ⟨fun r => ?_, ?_, ?_, ?_, fun r ht => ?_⟩
  · rw [hown, queueLeave_place]
    refine { hp r with published := fun e he => ?_, records := fun ho => ?_, parked := fun w hw => ?_ }
    · cases he
    · have hnone := (hp r).records ho
      rw [State.live_isSome, hnone]
      rfl
    · obtain ⟨hrec, hwd, hlanes⟩ := (hp r).parked w hw
      refine ⟨?_, rfl, hlanes⟩
      rw [State.live_isSome, hrec, hwd]
      rfl
  · exact (recordCount_le fun r hr => hlive r (by rwa [State.queueLeave_record] at hr)).trans hcount
  · unfold State.queueLeave
    exact hlength
  · rw [hown, State.queueLeave_peer, hroster]
  · have hrole : (s.queueLeave.entry r).role = (s.entry r).role := by
      rw [State.queueLeave_entry]
      split <;> rfl
    rw [hrole]
    exact htake r (takeOnLine_flight (by rw [State.queueLeave_line]) r ht)

theorem State.leaveIfDone_owned {s : State} (hs : OwnershipLaw s) : OwnershipLaw s.leaveIfDone := by
  unfold State.leaveIfDone
  split
  · exact State.queueLeave_owned hs
  · exact hs

theorem State.leaveExpires_owned {s : State} (hs : OwnershipLaw s) : OwnershipLaw s.leaveExpires := by
  unfold State.leaveExpires
  split
  · exact State.queueLeave_owned hs
  · exact hs

theorem State.enterLeaving_owned {s : State} (hs : OwnershipLaw s) : OwnershipLaw s.enterLeaving := by
  have hleaving := (State.transition_same .leaving .command s).owned hs
  unfold State.enterLeaving
  dsimp only
  generalize s.transition .leaving .command = u at hleaving ⊢
  have hstopped : OwnershipLaw { u with ctl := { u.ctl with leave := Timer.start Config.leaveLimit, backlog := [] } } :=
    (Same.withCtl u (by exact rfl)).owned hleaving
  refine State.leaveIfDone_owned (forRegions_owned (f := State.releaseIfLeaving) (fun r s h => (State.releaseIfLeaving_same r s).owned h) ?_)
  refine forRegions_owned (f := State.serve) (fun r _ h => State.serve_owned h r) ?_
  exact forRegions_owned (f := fun r s => s.failRecord r .leave) (fun r _ h => State.failRecord_owned h r .leave) hstopped

theorem State.leaveCell_owned {s : State} (hs : OwnershipLaw s) : OwnershipLaw s.leaveCell := by
  unfold State.leaveCell
  split
  · exact (State.setResult_same _ _).owned (State.enterLeaving_owned hs)
  · exact (s.setResult_same _).owned hs

theorem State.join_owned {s : State} (hs : OwnershipLaw s) : OwnershipLaw s.join := by
  unfold State.join
  split
  · exact (s.setResult_same _).owned hs
  · split
    · exact (s.setResult_same _).owned hs
    · exact (Same.withCtl _ (by exact rfl)).owned ((State.transition_same _ _ _).owned ((s.setResult_same _).owned hs))

theorem State.enterActive_owned {s : State} (hs : OwnershipLaw s) : OwnershipLaw s.enterActive := by
  have hactive := (State.transition_same .active .joined s).owned hs
  unfold State.enterActive
  dsimp only
  generalize s.transition .active .joined = u at hactive ⊢
  refine forRegions_owned (f := State.serve) (fun r _ h => State.serve_owned h r) (Same.owned ?_ hactive)
  exact ⟨rfl, rfl, le_rfl, fun _ => id, fun _ => rfl⟩

end Sys2Proof.Machine

/-! The law of ownership over the line events: the scheduler, the attempts, and their outcomes. -/

namespace Sys2Proof.Machine

open Sys2Proof.Safety

/-! ### The frame in flight -/

theorem State.carrierAppears_same (s : State) : Same s s.carrierAppears := by
  unfold State.carrierAppears
  split
  · exact Same.refl s
  · exact Same.withFlight s rfl (takeOnLine_map (g := fun f => { f with wait := none }) rfl fun _ => ⟨rfl, id⟩)

theorem State.lineBecomesIdle_same (s : State) : Same s s.lineBecomesIdle := by
  unfold State.lineBecomesIdle
  split
  · exact Same.refl s
  · exact Same.trans (Same.withFlight s (by exact rfl) (takeOnLine_flight (by exact rfl))) (State.startWait_same _)

/-- A frame enters flight, not yet on the line. -/
theorem flown_same {s : State} {l : LineUnit} (hmarks : l.marks = s.line.marks) {job : Job} {frame : Option Frame} {fallen : Bool}
    (hf : l.flight = some (newFlight job frame fallen)) : Same s { s with line := l } := by
  refine Same.withFlight s hmarks ?_
  rintro q ⟨f, hflight, htransmitting, -⟩
  change l.flight = some f at hflight
  rw [hf] at hflight
  cases hflight
  cases htransmitting

theorem State.takePresence_same (s : State) : Same s s.takePresence := by
  unfold State.takePresence
  refine Same.trans (Same.trans (Same.withCtl s (x := { s.ctl with presenceDue := false }) (by exact rfl)) ?_) (State.startWait_same _)
  exact flown_same (by exact rfl) (by exact rfl)

theorem State.takeOffer_owned {s : State} (hs : OwnershipLaw s) (r : Region) : OwnershipLaw (s.takeOffer r) := by
  unfold State.takeOffer
  split
  · next e _ =>
    dsimp only
    have hnone : OwnershipLaw (s.setPub r none) := setPub_owned hs fun _ h => by cases h
    refine (State.startWait_same _).owned ?_
    generalize s.setPub r none = u at hnone ⊢
    refine Same.owned (Same.trans (Same.withPub u (x := { u.pub with pointer := r }) (by exact rfl)) ?_) hnone
    exact flown_same (by exact rfl) (by exact rfl)
  · exact hs

/-- The oldest mark leaves the order: where it is a WITHDRAW, the closing record of its region goes with it. -/
theorem State.admitMark_owned {s : State} (hs : OwnershipLaw s) : OwnershipLaw s.admitMark := by
  unfold State.admitMark
  split
  · next m ms hmarks =>
    have hplain (hm : ∀ q, Mark.isWithdraw q m = false) :
        OwnershipLaw { s with line := { (s.line.append m.frame) with marks := ms } } := by
      refine (Same.withLine s (fun q => ?_) (takeOnLine_flight (by exact rfl))).owned hs
      rw [hmarks]
      simp [hm q]
    dsimp only
    split
    · next r b =>
      have hline : AtRegion r s { s with line := { (s.line.append (Mark.withdraw r b).frame) with marks := ms } } := by
        refine ⟨rfl, rfl, le_max_right _ _, takeOnLine_flight rfl, fun q hq => place_congr rfl rfl rfl ?_ rfl rfl rfl⟩
        rw [hmarks]
        simp [Mark.isWithdraw, Ne.symm hq]
      have hx := placeLaw_of hs r
      have hclosing : (s.place r).withdrawn = true := by
        unfold State.place
        rw [hmarks]
        simp [Mark.isWithdraw]
      have hparked : (s.place r).parked = [] := by
        refine List.eq_nil_iff_forall_not_mem.2 fun w hw => ?_
        have hopen := (hx.parked w hw).2.1
        rw [hclosing] at hopen
        cases hopen
      refine (hline.trans (AtRegion.setRecord _ r none)).keeps hs (State.setRecord_place _ r none)
        { hx with records := fun _ => rfl, parked := fun w hw => ?_ } (fun h => by cases h) id
      have hw : w ∈ (s.place r).parked := hw
      rw [hparked] at hw
      cases hw
    all_goals exact hplain fun _ => rfl
  · exact hs

theorem State.takeHead_owned {s : State} (hs : OwnershipLaw s) (e : QEntry) (rest : List QEntry) : OwnershipLaw (s.takeHead e rest) :=
  (State.startWait_same _).owned (State.admitMark_owned (Same.owned (flown_same (by exact rfl) (by exact rfl)) hs))

theorem State.schedule_owned {s : State} (hs : OwnershipLaw s) : OwnershipLaw s.schedule := by
  unfold State.schedule
  split
  · split
    · split
      · exact State.takeOffer_owned hs _
      · split
        · exact s.takePresence_same.owned hs
        · split
          · exact State.takeHead_owned hs _ _
          · exact State.takeOffer_owned hs _
    · exact s.takePresence_same.owned hs
    · exact State.takeHead_owned hs _ _
    · exact hs
  · exact hs

/-! ### Attempts -/

/-- An attempt starts: where it is that of a TAKE, its region is not owned. -/
theorem State.startAttempt_owned {s : State} (hs : OwnershipLaw s) {f : Flight} (frame : Frame)
    (h : ∀ r, f.job = .control (.take r) → (s.entry r).role.owns = false) : OwnershipLaw (s.startAttempt f frame) := by
  obtain ⟨hp, hcount, hlength, hroster, -⟩ := (ownershipLaw_iff s).1 hs
  refine (ownershipLaw_iff _).2 ⟨hp, hcount, hlength, hroster, ?_⟩
  rintro r ⟨f', hf', -, hjob⟩
  cases hf'
  exact h r hjob

theorem takeStands_unowned {s : State} {r : Region} (h : s.takeStands r = true) : (s.entry r).role.owns = false := by
  unfold State.takeStands at h
  have hrole : (s.entry r).role = .orphan := by simpa using (Bool.and_eq_true_iff.1 h).1
  rw [hrole]
  rfl

/-- The capture of a HANDOVER toward a claimant. -/
theorem State.captureHandover_owned {s : State} (hs : OwnershipLaw s) {f : Flight} {r : Region} (hf : f.job = .control (.handover r))
    (hrole : (s.entry r).role = .owner) {target : Station} (htarget : target ∈ s.claimants r) (others : List Station) :
    OwnershipLaw (s.captureHandover f r target others) := by
  have howns : (s.entry r).role.owns = true := by rw [hrole]; rfl
  have hx := placeLaw_of hs r
  have howner : (s.entry r).owner = some s.ctl.ownId := by
    have h := hs.roles.roles r
    unfold agrees at h
    rwa [hrole] at h
  obtain ⟨hlength, hnodup, hother, -⟩ := hx.claimants
  unfold State.captureHandover
  refine State.startAttempt_owned ?_ _ fun q hq => ?_
  · refine AtRegion.keeps (r := r)
      (((AtRegion.setEntry s r { s.entry r with role := .handing }).trans (AtRegion.setPub _ r none)).trans (AtRegion.setServing _ r _))
      hs (x := { s.place r with entry := DirEntry.plain { s.entry r with role := .handing }, pub := none, target := some target })
      ?_ ?_ id fun _ => howns
    · rw [State.setServing_place, State.setPub_place, State.setEntry_place]
      rfl
    · refine { hx with roles := howner, valid := fun _ => hx.valid howns, marks := fun ho => ?_, published := fun e he => ?_,
                       records := fun _ => hx.records howns, claimants := ⟨hlength, hnodup, hother, fun _ => rfl⟩,
                       captured := fun p hp => ?_ }
      · cases ho
      · cases he
      · cases hp
        exact ⟨rfl, fun h => hother (h ▸ htarget)⟩
  · rw [hf] at hq
    cases hq

theorem State.requestRelease_owned {s : State} (hs : OwnershipLaw s) (r : Region) : OwnershipLaw (s.requestRelease r) :=
  (s.requestRelease_same r).owned hs

theorem State.tryHandover_owned {s : State} (hs : OwnershipLaw s) {f : Flight} {r : Region} (hf : f.job = .control (.handover r)) :
    OwnershipLaw (s.tryHandover f r) := by
  have hidle := State.handoverIdle_owned (State.endFlight_owned hs) r
  unfold State.tryHandover
  split
  · exact State.endFlight_owned hs
  · split
    · exact hidle
    · next hrole =>
      split
      · dsimp only
        refine (State.releaseIfLeaving_same r _).owned ?_
        split
        · exact State.requestRelease_owned ((Same.withServing (s := s.endFlight.handoverIdle r) (r := r) (by exact rfl)).owned hidle) r
        · exact hidle
      · next hclaimants =>
        split
        · exact hidle
        · split
          · exact State.goOn_owned (State.handoverIdle_owned (State.removeClaimant_owned (State.endFlight_owned hs) r _) r) r
          · exact State.captureHandover_owned hs hf (not_not.1 hrole) (by rw [hclaimants]; exact List.mem_cons_self) _

theorem State.tryRelease_owned {s : State} (hs : OwnershipLaw s) {f : Flight} {r : Region} (hf : f.job = .control (.release r)) :
    OwnershipLaw (s.tryRelease f r) := by
  have hidle := (State.releaseIdle_same r _).owned (State.endFlight_owned hs)
  unfold State.tryRelease
  split
  · exact State.endFlight_owned hs
  · split
    · exact hidle
    · split
      · exact State.serve_owned hidle r
      · split
        · exact (State.hand_same (fun _ => rfl) _).owned (State.endFlight_owned hs)
        · refine State.startAttempt_owned ((Same.withEntry s (r := r) (by exact rfl)).owned hs) _ fun q hq => ?_
          rw [hf] at hq
          cases hq

/-- An attempt of a frame that is no TAKE. -/
theorem otherAttempt_owned {s : State} (hs : OwnershipLaw s) {f : Flight} {q : QFrame} (hf : f.job = .control q)
    (hq : ∀ r, q ≠ .take r) (frame : Frame) : OwnershipLaw (s.startAttempt f frame) :=
  State.startAttempt_owned hs frame fun r h => by rw [hf] at h; cases h; exact absurd rfl (hq r)

/-- An attempt of a TAKE that stands. -/
theorem takeAttempt_owned {s : State} (hs : OwnershipLaw s) {f : Flight} {r : Region} (hf : f.job = .control (.take r))
    (h : s.takeStands r = true) (frame : Frame) : OwnershipLaw (s.startAttempt f frame) :=
  State.startAttempt_owned hs frame fun q hq => by rw [hf] at hq; cases hq; exact takeStands_unowned h

theorem State.firstAttempt_owned {s : State} (hs : OwnershipLaw s) {f : Flight} {q : QFrame} (hf : f.job = .control q) :
    OwnershipLaw (s.firstAttempt f q) := by
  have hend := State.endFlight_owned hs
  cases q with
  | join | leave | wait | refuse => exact otherAttempt_owned hs hf (by simp) _
  | claim r =>
    unfold State.firstAttempt
    dsimp only
    split
    · exact otherAttempt_owned hs hf (by simp) _
    · exact hend
  | withdraw r =>
    unfold State.firstAttempt
    dsimp only
    split
    · exact hend
    · exact otherAttempt_owned hs hf (by simp) _
  | handover r => exact State.tryHandover_owned hs hf
  | take r =>
    unfold State.firstAttempt
    dsimp only
    split
    · next h => exact takeAttempt_owned hs (f := s.noteTake r f) hf h _
    · exact hend
  | release r => exact State.tryRelease_owned hs hf
  | repair r =>
    unfold State.firstAttempt
    dsimp only
    split
    · exact otherAttempt_owned hs hf (by simp) _
    · exact hend

theorem State.laterAttempt_owned {s : State} (hs : OwnershipLaw s) {f : Flight} {q : QFrame} (hf : f.job = .control q) (frame : Frame) :
    OwnershipLaw (s.laterAttempt f frame q) := by
  have hend := State.endFlight_owned hs
  cases q with
  | join | leave | wait | refuse | withdraw | repair => exact otherAttempt_owned hs hf (by simp) _
  | claim r =>
    unfold State.laterAttempt
    dsimp only
    split
    · exact otherAttempt_owned hs hf (by simp) _
    · exact hend
  | handover r =>
    change OwnershipLaw (s.recheckHandover f frame r)
    unfold State.recheckHandover
    split
    · exact hend
    · split
      · split
        · exact otherAttempt_owned hs hf (by simp) _
        · exact State.withdrawHandover_owned hs r _
      · exact hend
      · exact hend
  | take r =>
    unfold State.laterAttempt
    dsimp only
    split
    · next h => exact takeAttempt_owned hs hf h _
    · exact hend
  | release r =>
    change OwnershipLaw (s.recheckRelease f frame r)
    unfold State.recheckRelease
    split
    · exact hend
    · split
      · exact otherAttempt_owned hs hf (by simp) _
      · exact (State.releaseIdle_same r _).owned hend

theorem State.attempt_owned {s : State} (hs : OwnershipLaw s) (f : Flight) : OwnershipLaw (s.attempt f) := by
  have hplain {job : Job} (hjob : f.job = job) (hother : ∀ q, job ≠ .control q) (frame : Frame) : OwnershipLaw (s.startAttempt f frame) :=
    State.startAttempt_owned hs frame fun r h => absurd (hjob.symm.trans h) (hother _)
  unfold State.attempt
  split
  · next hjob => exact hplain hjob (by simp) _
  · next hjob _ =>
    split
    · exact hplain hjob (by simp) _
    · exact State.endFlight_owned hs
  · exact State.endFlight_owned hs
  · next hjob _ => exact State.firstAttempt_owned hs hjob
  · next hjob _ => exact State.laterAttempt_owned hs hjob _

theorem State.waitEnds_owned {s : State} (hs : OwnershipLaw s) : OwnershipLaw s.waitEnds := by
  unfold State.waitEnds
  split
  · split
    · exact State.leaveIfDone_owned (State.attempt_owned hs _)
    · exact hs
  · exact hs

/-! ### Outcomes -/

/-- The owner of a carried frame: the region of a carried TAKE is not owned. -/
theorem State.ownerCarried_owned {s : State} (hs : OwnershipLaw s) (hsilent : s.transmitting = false) {f : Flight}
    (h : ∀ r, f.job = .control (.take r) → (s.entry r).role.owns = false) : OwnershipLaw (s.ownerCarried f) := by
  unfold State.ownerCarried
  split
  · exact hs
  · exact (s.carryUpdate_same f _ _).owned hs
  · next hjob =>
    split
    · split
      · exact State.enterActive_owned hs
      · exact hs
    · split
      · exact State.goOffline_owned hs
      · exact hs
    · exact (s.carryClaim_same f _).owned hs
    · exact State.carryHandover_owned hs f _ _
    · exact State.carryTake_owned hs (h _ hjob) hsilent _ _
    · exact State.carryRelease_owned hs f _ _
    all_goals exact hs

theorem State.ownerDropped_owned {s : State} (hs : OwnershipLaw s) (f : Flight) : OwnershipLaw (s.ownerDropped f) := by
  unfold State.ownerDropped
  split
  · exact hs
  · exact State.addFull_owned hs _
  · split
    · split
      · exact State.goOffline_owned hs
      · exact hs
    · exact State.dropClaim_owned hs f _
    · exact State.dropHandover_owned hs f _
    · exact (s.dropTake_same _).owned hs
    · exact (s.dropRelease_same f _).owned hs
    all_goals exact hs

theorem State.carried_owned {s : State} (hs : OwnershipLaw s) : OwnershipLaw s.carried := by
  unfold State.carried
  split
  · next f hf =>
    split
    · next htransmitting =>
      dsimp only
      refine State.leaveIfDone_owned (State.ownerCarried_owned (Same.owned (Same.withFlight s (by exact rfl) ?_) hs) rfl fun r hjob => ?_)
      · exact takeOnLine_none (by exact rfl)
      · exact hs.taking f r hf htransmitting hjob
    · exact hs
  · exact hs

theorem State.isolateIfLimit_owned {s : State} (hs : OwnershipLaw s) (f : Flight) : OwnershipLaw (s.isolateIfLimit f) := by
  unfold State.isolateIfLimit
  split
  · exact State.isolate_owned hs _
  · exact hs

theorem State.dropFlight_owned {s : State} (hs : OwnershipLaw s) (f : Flight) : OwnershipLaw (s.dropFlight f) := by
  have hlatched : OwnershipLaw (s.notify (.frameDropped f.job.kind f.job.region)).latchLine :=
    (Same.withCmd _ _).owned ((State.notify_same _ s).owned hs)
  unfold State.dropFlight
  dsimp only
  generalize (s.notify (.frameDropped f.job.kind f.job.region)).latchLine = u at hlatched ⊢
  refine State.leaveIfDone_owned (State.isolateIfLimit_owned (State.ownerDropped_owned ?_ f) f)
  exact (Same.withFlight u (by exact rfl) (takeOnLine_none (by exact rfl))).owned hlatched

theorem State.startWaitIfIdle_same (s : State) : Same s s.startWaitIfIdle := by
  unfold State.startWaitIfIdle
  split
  · exact Same.refl s
  · exact s.startWait_same

theorem State.collided_owned {s : State} (hs : OwnershipLaw s) : OwnershipLaw s.collided := by
  unfold State.collided
  split
  · next f hf =>
    split
    · dsimp only
      split
      · refine (State.startWaitIfIdle_same _).owned ((Same.withFlight s (by exact rfl) ?_).owned hs)
        rintro q ⟨f', hf', htransmitting, -⟩
        cases hf'
        cases htransmitting
      · exact State.dropFlight_owned ((Same.withFlight s (by exact rfl) (takeOnLine_flight (by exact rfl))).owned hs) f
    · exact hs
  · exact hs

end Sys2Proof.Machine

/-! The law of ownership over the received frames, and over every step (O57). -/

namespace Sys2Proof.Machine

open Sys2Proof.Safety

/-! ### Peers -/

/-- A region whose owner field names another station is not owned. -/
theorem unowned_of_owner {s : State} (hs : OwnershipLaw s) {r : Region} {p : Station} (hp : p ≠ s.ctl.ownId)
    (h : (s.entry r).owner = some p) : (s.entry r).role.owns = false := by
  have hagrees := hs.roles.roles r
  unfold agrees at hagrees
  cases hrole : (s.entry r).role with
  | peer | orphan => rfl
  | owner | handing =>
    rw [hrole] at hagrees
    dsimp only at hagrees
    rw [hagrees] at h
    cases h
    exact absurd rfl hp

/-- Acts taken for every region, that keep the law of ownership at a station of one ID. -/
theorem forRegions_ownedBy {own : Station} {f : Region → State → State}
    (h : ∀ r s, OwnershipLaw s → s.ctl.ownId = own → OwnershipLaw (f r s)) (hctl : ∀ r s, (f r s).ctl = s.ctl) {s : State}
    (hs : OwnershipLaw s) (hown : s.ctl.ownId = own) : OwnershipLaw (s.forRegions f) :=
  (State.forRegions_keeps (P := fun s => OwnershipLaw s ∧ s.ctl.ownId = own)
    (fun r s ⟨hs, hown⟩ => ⟨h r s hs hown, by rw [hctl]; exact hown⟩) s ⟨hs, hown⟩).1

theorem State.loseOwner_owned {s : State} (hs : OwnershipLaw s) {p : Station} (hp : p ≠ s.ctl.ownId) (r : Region) :
    OwnershipLaw (s.loseOwner p r) := by
  unfold State.loseOwner
  split
  · next h =>
    exact (State.toOrphanClaim_same r _).owned (orphaned_owned hs (unowned_of_owner hs hp h) (s.entry r).lastSeq)
  · exact hs

theorem removeEverywhere_place (s : State) (p : Station) (r : Region) :
    (s.removeEverywhere p).place r = { s.place r with claimants := (s.claimants r).filter fun q => q != p } := by
  have h : (s.removeEverywhere p).claimants r = (s.claimants r).filter fun q => q != p := by
    unfold State.claimants State.removeEverywhere
    rw [List.filter_filter, List.filter_map, List.filter_filter]
    refine congrArg _ (List.filter_congr fun e _ => ?_)
    cases e.region == r <;> simp
  unfold State.place
  rw [h]
  rfl

theorem State.removeEverywhere_owned {s : State} (hs : OwnershipLaw s) (p : Station) : OwnershipLaw (s.removeEverywhere p) := by
  obtain ⟨hplace, hcount, hlength, hroster, htake⟩ := (ownershipLaw_iff s).1 hs
  refine (ownershipLaw_iff _).2 ⟨fun r => ?_, hcount, (List.length_filter_le _ _).trans hlength, hroster, htake⟩
  rw [removeEverywhere_place]
  exact (hplace r).fewer List.filter_sublist

theorem State.reportLoss_owned {s : State} (hs : OwnershipLaw s) {p : Station} (hp : p ≠ s.ctl.ownId) : OwnershipLaw (s.reportLoss p) := by
  unfold State.reportLoss
  refine forRegions_owned (f := State.releaseDeferred p) (fun r s h => (s.releaseDeferred_same p r).owned h)
    (State.removeEverywhere_owned ?_ p)
  exact forRegions_ownedBy (f := State.loseOwner p) (fun r s h hown => State.loseOwner_owned h (by rw [hown]; exact hp) r)
    (fun r s => s.loseOwner_ctl p r) hs rfl

theorem State.reportLoss_ctl (s : State) (p : Station) : (s.reportLoss p).ctl = s.ctl := by
  unfold State.reportLoss
  dsimp only
  rw [State.forRegions_eq State.ctl fun r s => s.releaseDeferred_ctl p r, State.removeEverywhere_ctl,
    State.forRegions_eq State.ctl fun r s => s.loseOwner_ctl p r]

theorem State.dropPeer_same {s : State} {p : Station} (hp : p ≠ s.ctl.ownId) : Same s (s.dropPeer p) := Same.withPeer s _ hp

/-- A peer is lost with its notice. -/
theorem goneWith_owned {s : State} (hs : OwnershipLaw s) {p : Station} (hp : p ≠ s.ctl.ownId) (left : Bool) :
    OwnershipLaw (((s.dropPeer p).notify (.peerGone p left)).reportLoss p) := by
  have hgone := (State.dropPeer_same hp).trans (State.notify_same (.peerGone p left) _)
  exact State.reportLoss_owned (hgone.owned hs) (by rw [hgone.own]; exact hp)

theorem State.silenceExpires_owned {s : State} (hs : OwnershipLaw s) (p : Station) : OwnershipLaw (s.silenceExpires p) := by
  unfold State.silenceExpires
  split
  · next h =>
    refine goneWith_owned hs (fun hp => ?_) false
    rw [hp, hs.roles.roster] at h
    cases h
  · exact hs

theorem State.peerLeft_owned {s : State} (hs : OwnershipLaw s) {p : Station} (hp : p ≠ s.ctl.ownId) : OwnershipLaw (s.peerLeft p) := by
  unfold State.peerLeft
  split
  · exact State.reportLoss_owned hs hp
  · exact goneWith_owned hs hp true
  · exact goneWith_owned hs hp true

theorem State.peerLeft_ctl (s : State) (p : Station) : (s.peerLeft p).ctl = s.ctl := by
  unfold State.peerLeft State.dropPeer
  split <;> simp [State.reportLoss_ctl]

theorem State.announcement_same {s : State} {p : Station} (hp : p ≠ s.ctl.ownId) (major : BitVec 4) (profile : Profile) (a : Announced)
    (byJoin : Bool) : Same s (s.announcement p major profile a byJoin) := by
  unfold State.announcement
  split
  · split <;> exact (Same.withPeer s _ hp).trans (State.notify_same _ _)
  · unfold State.laterAnnouncement
    dsimp only
    split
    · exact (Same.withPeer s _ hp).trans (State.notify_same _ _)
    · exact Same.withPeer s _ hp
  · split
    · exact Same.refl s
    · exact Same.withPeer s _ hp

/-- The roster takes a frame of another station. -/
theorem State.takeRoster_owned {s : State} (hs : OwnershipLaw s) {p : Station} (hp : p ≠ s.ctl.ownId) (major : BitVec 4) (v : RosterView) :
    OwnershipLaw (s.takeRoster p major v) ∧ (s.takeRoster p major v).ctl.ownId = s.ctl.ownId ∧
      (v = .other → (s.takeRoster p major v).line = s.line) := by
  unfold State.takeRoster
  split
  · have h := State.announcement_same hp
    exact ⟨(h ..).owned hs, (h ..).own, fun h => by cases h⟩
  · have h := State.announcement_same hp
    exact ⟨(h ..).owned hs, (h ..).own, fun h => by cases h⟩
  · exact ⟨State.peerLeft_owned hs hp, by rw [State.peerLeft_ctl], fun h => by cases h⟩
  · split
    · exact ⟨(Same.withPeer s _ hp).owned hs, rfl, fun _ => rfl⟩
    · exact ⟨hs, rfl, fun _ => rfl⟩
    · exact ⟨hs, rfl, fun _ => rfl⟩

/-! ### Receive dispatch -/

/-- What the blocks of a frame may rely on: the law of ownership, a source that is another station, and, unless the roster takes the
frame's kind, a line on which this station is not transmitting. -/
structure Receiving (v : RosterView) (p : Station) (s : State) : Prop where
  owned : OwnershipLaw s
  other : p ≠ s.ctl.ownId
  silent : v = .other → s.transmitting = false

theorem State.sense_owned {s : State} (hs : OwnershipLaw s) (b : Burst) {take : State → State}
    (h : ∀ u, OwnershipLaw u → u.transmitting = false → OwnershipLaw (take u)) : OwnershipLaw (s.sense b take) := by
  have hfound : OwnershipLaw (s.foundBurst b) :=
    (Same.withFlight s (x := { s.line with burst := b }) rfl (takeOnLine_flight rfl)).owned hs
  unfold State.sense
  split
  · exact hs
  · next hn =>
    split
    · exact h _ hfound (by simp only [not_or, Bool.not_eq_true] at hn; exact hn.2)
    · exact hfound

theorem State.countGood_owned {s : State} (hs : OwnershipLaw s) : OwnershipLaw s.countGood :=
  (Same.withFlight s (x := { s.line with received := satSucc s.line.received }) rfl (takeOnLine_flight rfl)).owned hs

theorem State.receive_owned {s : State} (hs : OwnershipLaw s) (hd : Header) (v : RosterView) {blocks : Station → State → State}
    (h : ∀ p u, Receiving v p u → OwnershipLaw (blocks p u)) : OwnershipLaw (s.receive hd v blocks) := by
  refine State.sense_owned hs _ fun u hu hsilent => ?_
  have hgood := State.countGood_owned hu
  dsimp only
  split
  · next p _ =>
    split
    · exact State.clash_owned hgood
    · next hp =>
      unfold State.deliver
      dsimp only
      obtain ⟨howned, hown, hline⟩ := State.takeRoster_owned hgood hp hd.major v
      split
      · refine h p _ ⟨howned, by rw [hown]; exact hp, fun hv => ?_⟩
        unfold State.transmitting at hsilent ⊢
        rw [hline hv]
        exact hsilent
      · exact howned
  · exact hgood

theorem inRegion_owned {hd : Header} {f : Region → State → State} {s : State} (hs : OwnershipLaw s)
    (h : ∀ r, OwnershipLaw (f r s)) : OwnershipLaw (inRegion hd f s) := by
  unfold inRegion
  split
  · exact h _
  · exact hs

/-! ### UPDATE, HANDOVER, TAKE, RELEASE at the directory -/

theorem State.writeSpan_owned {s : State} (hs : OwnershipLaw s) (r : Region) (offset : Nat) (data : List Byte) :
    OwnershipLaw (s.writeSpan r offset data) := (Same.withImage s _).owned hs

theorem State.updateFromOther_owned {s : State} (hs : OwnershipLaw s) {r : Region} (h : (s.entry r).role.owns = false) {p : Station}
    (hp : p ≠ s.ctl.ownId) (seq : Half) (offset : Nat) (data : List Byte) : OwnershipLaw (s.updateFromOther r p seq offset data) := by
  have hwritten := State.writeSpan_owned (peered_owned hs h hp seq) r offset data
  have hrole : (((s.setEntry r { s.entry r with owner := some p, role := .peer, lastSeq := seq }).writeSpan r offset data).entry r).role.owns =
      false := congrArg (fun e => e.role.owns) (State.setEntry_entry_same s r _)
  unfold State.updateFromOther
  dsimp only
  refine (State.toNormalClaim_same r _).owned ?_
  split
  · exact State.markValid_owned hwritten hrole
  · exact State.markStale_owned hwritten hrole _

theorem State.updateFromOwner_owned {s : State} (hs : OwnershipLaw s) {r : Region} (h : (s.entry r).role.owns = false) (seq : Half)
    (offset : Nat) (data : List Byte) : OwnershipLaw (s.updateFromOwner r seq offset data) := by
  have hwritten := State.writeSpan_owned ((Same.withEntry s (r := r) (e := { s.entry r with lastSeq := seq }) (by exact rfl)).owned hs)
    r offset data
  have hrole : (((s.setEntry r { s.entry r with lastSeq := seq }).writeSpan r offset data).entry r).role.owns = false :=
    (congrArg (fun e => e.role.owns) (State.setEntry_entry_same s r { s.entry r with lastSeq := seq })).trans h
  unfold State.updateFromOwner
  split
  · exact hs
  · exact hs
  · dsimp only
    split
    · exact State.markValid_owned hwritten hrole
    · exact hwritten
  · dsimp only
    split
    · exact State.markValid_owned hwritten hrole
    · exact State.markStale_owned hwritten hrole _

theorem State.takeUpdate_owned {s : State} (hs : OwnershipLaw s) {p : Station} (hp : p ≠ s.ctl.ownId) (seq : Half) (offset : Byte)
    (data : List Byte) (r : Region) : OwnershipLaw (s.takeUpdate p seq offset data r) := by
  unfold State.takeUpdate
  split
  · exact hs
  · split
    · next h => exact State.leaveIfDone_owned (State.meetRival_owned hs h hp _)
    · next h =>
      rw [Bool.not_eq_true] at h
      split
      · exact State.updateFromOwner_owned hs h _ _ _
      · exact State.updateFromOther_owned hs h hp _ _ _

theorem State.followOwner_owned {s : State} (hs : OwnershipLaw s) {r : Region} (h : (s.entry r).role.owns = false) {p : Station}
    (hp : p ≠ s.ctl.ownId) (seq : Half) (content : Vector Byte 128) : OwnershipLaw (s.followOwner r p seq content) := by
  unfold State.followOwner
  split
  · exact hs
  · exact (State.toNormalClaim_same r _).owned (State.follow_owned ((Same.withImage s (writeRegion s.image r content)).owned hs) h hp seq)

theorem State.takeHandover_owned {s : State} (hs : OwnershipLaw s) (hsilent : s.transmitting = false) (src : Station) (seq : Half)
    (newOwner count : Byte) (ids : Vector Byte 3) (content : Vector Byte 128) (r : Region) :
    OwnershipLaw (s.takeHandover src seq newOwner count ids content r) := by
  unfold State.takeHandover
  split
  · exact hs
  · split
    · exact hs
    · split
      · split
        · split
          · exact State.addFull_owned hs r
          · exact hs
        · next h =>
          refine State.leaveIfDone_owned (State.gainRegion_owned hs (by simpa using h) hsilent src seq ?_ content)
          exact (List.length_take_le' _ _).trans (by simp)
      · next hx =>
        split
        · next h => exact State.leaveIfDone_owned (State.meetRival_owned hs h hx _)
        · next h => exact State.followOwner_owned hs (by simpa using h) hx seq content

theorem State.takeTake_owned {s : State} (hs : OwnershipLaw s) {p : Station} (hp : p ≠ s.ctl.ownId) (seq : Half)
    (content : Vector Byte 128) (r : Region) : OwnershipLaw (s.takeTake p seq content r) := by
  unfold State.takeTake
  split
  · next h => exact State.leaveIfDone_owned (State.meetRival_owned hs h hp _)
  · next h => exact State.followOwner_owned hs (by simpa using h) hp seq content

theorem State.takeRelease_owned {s : State} (hs : OwnershipLaw s) (p : Station) (seq : Half) (r : Region) :
    OwnershipLaw (s.takeRelease p seq r) := by
  unfold State.takeRelease
  split
  · next h => exact (State.toOrphanClaim_same r _).owned (orphaned_owned hs (by rw [h.1]; rfl) seq)
  · exact hs

/-! ### PRESENCE and JOIN -/

theorem State.reconcile_owned {s : State} (hs : OwnershipLaw s) {p : Station} (hp : p ≠ s.ctl.ownId) (owned : BitVec 128) (r : Region) :
    OwnershipLaw (s.reconcile p owned r) := by
  unfold State.reconcile
  split
  · split
    · next h => exact State.meetRival_owned hs h hp none
    · next h =>
      rw [Bool.not_eq_true] at h
      split
      · exact hs
      · refine (State.toNormalClaim_same r _).owned (State.markStale_owned (peered_owned hs h hp (s.entry r).lastSeq) ?_ _)
        exact congrArg (fun e => e.role.owns) (State.setEntry_entry_same s r _)
  · exact State.loseOwner_owned hs hp r

theorem State.yieldRegion_ctl (s : State) (r : Region) (p : Station) (seq : Option Half) : (s.yieldRegion r p seq).ctl = s.ctl := by
  unfold State.yieldRegion
  dsimp only
  rw [State.notify_ctl, State.notify_ctl, State.refuseAll_refused]
  rfl

theorem State.reconcile_ctl (s : State) (p : Station) (owned : BitVec 128) (r : Region) : (s.reconcile p owned r).ctl = s.ctl := by
  unfold State.reconcile State.meetRival
  split_ifs
  · exact s.winConflict_ctl r p
  · exact s.yieldRegion_ctl r p none
  · rfl
  · rw [State.toNormalClaim_ctl, State.markStale_ctl, State.setEntry_ctl]
  · exact s.loseOwner_ctl p r

theorem State.takePresenceList_owned {s : State} (hs : OwnershipLaw s) {p : Station} (hp : p ≠ s.ctl.ownId) (owned : BitVec 128) :
    OwnershipLaw (s.takePresenceList p owned) :=
  State.leaveIfDone_owned (forRegions_ownedBy (f := State.reconcile p owned)
    (fun r s h hown => State.reconcile_owned h (by rw [hown]; exact hp) owned r) (fun r s => s.reconcile_ctl p owned r) hs rfl)

theorem State.catchUp_owned {s : State} (hs : OwnershipLaw s) (p : Station) : OwnershipLaw (s.catchUp p) := by
  unfold State.catchUp
  split
  · split
    · exact State.addFullAll_owned hs
    · exact hs
  · split
    · exact State.addFullAll_owned hs
    · exact hs
  all_goals exact hs

/-! ### Claim traffic -/

theorem State.answer_owned {s : State} (hs : OwnershipLaw s) (q : QFrame) : OwnershipLaw (s.answer q) := (s.answer_same q).owned hs

/-- A claimant queued where the table has room. -/
theorem State.appendClaimant_owned {s : State} (hs : OwnershipLaw s) {r : Region} (h : (s.entry r).role.owns = true) {p : Station}
    (hp : p ≠ s.ctl.ownId) (hnew : p ∉ s.claimants r) (hroom : s.tableRoom r = true) : OwnershipLaw (s.appendClaimant r p) := by
  unfold State.tableRoom at hroom
  simp only [Bool.and_eq_true, decide_eq_true_eq] at hroom
  obtain ⟨hfour, htable⟩ := hroom
  exact (AtRegion.appendClaimant s r p htable).keeps hs (s.appendClaimant_place r p) ((placeLaw_of hs r).queued h hp hnew hfour) id id

theorem State.claimAtOwner_owned {s : State} (hs : OwnershipLaw s) {r : Region} (h : (s.entry r).role.owns = true) {p : Station}
    (hp : p ≠ s.ctl.ownId) : OwnershipLaw (s.claimAtOwner p r) := by
  unfold State.claimAtOwner
  split
  · exact State.answer_owned hs _
  · next hnew =>
    split
    · next hroom => exact State.serve_owned (State.answer_owned (State.appendClaimant_owned hs h hp hnew hroom) _) r
    · exact State.answer_owned hs _

theorem State.claimAtLeaver_owned {s : State} (hs : OwnershipLaw s) {r : Region} (h : (s.entry r).role.owns = true) {p : Station}
    (hp : p ≠ s.ctl.ownId) : OwnershipLaw (s.claimAtLeaver p r) := by
  unfold State.claimAtLeaver
  split
  · exact hs
  · split
    · split
      · exact hs
      · next hnew =>
        split
        · next hroom => exact State.appendClaimant_owned hs h hp hnew hroom
        · exact State.answer_owned hs _
    · exact State.answer_owned hs _

theorem State.claimAtJoiner_owned {s : State} (hs : OwnershipLaw s) {r : Region} (h : (s.entry r).role.owns = true) {p : Station}
    (hp : p ≠ s.ctl.ownId) : OwnershipLaw (s.claimAtJoiner p r) := by
  unfold State.claimAtJoiner
  split
  · exact hs
  · next hnew =>
    split
    · next hroom => exact State.appendClaimant_owned hs h hp hnew hroom
    · exact hs

theorem State.redirectClaim_same (s : State) (p : Station) (r : Region) : Same s (s.redirectClaim p r) := by
  unfold State.redirectClaim
  split
  · exact s.answer_same _
  · exact Same.refl s

theorem State.compareOrphan_same {s : State} {r : Region} {c : ClaimRecord} (hc : s.liveRecord r = some c) (p : Station) :
    Same s (s.compareOrphan p r c) := by
  unfold State.compareOrphan
  split
  · exact (changed_same hc _).trans (State.claimWithdrawn_same r _)
  all_goals exact Same.refl s

theorem State.claimAtOther_same (s : State) (p : Station) (r : Region) : Same s (s.claimAtOther p r) := by
  unfold State.claimAtOther
  split
  · next hc =>
    split
    · exact State.compareOrphan_same hc p
    · exact s.redirectClaim_same p r
  · exact s.redirectClaim_same p r

theorem State.takeClaim_owned {s : State} (hs : OwnershipLaw s) {p : Station} (hp : p ≠ s.ctl.ownId) (r : Region) :
    OwnershipLaw (s.takeClaim p r) := by
  unfold State.takeClaim
  split
  · next h =>
    split
    · exact State.claimAtOwner_owned hs h hp
    · exact State.leaveIfDone_owned (State.claimAtLeaver_owned hs h hp)
    · exact State.claimAtJoiner_owned hs h hp
    · exact State.claimAtJoiner_owned hs h hp
    all_goals exact hs
  · exact (s.claimAtOther_same p r).owned hs

theorem State.waitAtRecord_same {s : State} {r : Region} {c : ClaimRecord} (hc : s.liveRecord r = some c) (p : Station) :
    Same s (s.waitAtRecord p r c) := by
  unfold State.waitAtRecord
  dsimp only
  split
  · exact (changed_same hc _).trans (State.dropClaimMark_same r _)
  · exact Same.refl s
  · exact (changed_same hc _).trans (State.claimWithdrawn_same r _)

theorem State.takeWait_same (s : State) (p : Station) (claimant : Byte) (r : Region) : Same s (s.takeWait p claimant r) := by
  unfold State.takeWait
  split
  · split
    · next hc => exact State.waitAtRecord_same hc p
    · split
      · exact Same.refl s
      · exact s.withdrawIfRoom_same r
  · exact Same.refl s

/-- A region with a live record is not owned. -/
theorem unowned_of_live {s : State} (hs : OwnershipLaw s) {r : Region} {c : ClaimRecord} (hc : s.liveRecord r = some c) :
    (s.entry r).role.owns = false := by
  rw [← Bool.not_eq_true]
  intro ho
  have hnone := hs.records.2 r ho
  rw [State.record_of_live hc] at hnone
  cases hnone

theorem liveBelieved_other {s : State} {p b : Station} {believed : Byte} (h : s.liveBelieved p believed = some b) : b ≠ s.ctl.ownId := by
  unfold State.liveBelieved at h
  split at h
  · split at h
    · cases h
    · next hn =>
      cases h
      exact fun hown => hn (.inl hown)
  · cases h

theorem State.redirectTo_owned {s : State} (hs : OwnershipLaw s) {r : Region} (h : (s.entry r).role.owns = false) {b : Station}
    (hb : b ≠ s.ctl.ownId) : OwnershipLaw (s.redirectTo r b) := peered_owned hs h hb (s.entry r).lastSeq

theorem State.refuseNormal_owned {s : State} (hs : OwnershipLaw s) {r : Region} {c : ClaimRecord} (hc : s.liveRecord r = some c)
    (p : Station) (why : RefuseReason) (believed : Byte) : OwnershipLaw (s.refuseNormal p why believed r c) := by
  unfold State.refuseNormal
  split
  · split
    · exact (s.toOrphanClaim_same r).owned hs
    · next b hb =>
      have hfollowed := State.redirectTo_owned hs (unowned_of_live hs hc) (liveBelieved_other hb)
      dsimp only
      split
      · exact hfollowed
      · split
        · exact (State.needClaim_same r _).owned ((changed_same (s := s.redirectTo r b) (c := c) hc _).owned hfollowed)
        · exact State.failRecord_owned hfollowed r _
  · split
    · exact hs
    · split
      · exact (changed_same hc _).owned hs
      · exact State.failRecord_owned hs r _
  · exact State.failRecord_owned hs r _

theorem State.refuseOrphan_owned {s : State} (hs : OwnershipLaw s) {r : Region} {c : ClaimRecord} (hc : s.liveRecord r = some c)
    (p : Station) (why : RefuseReason) (believed : Byte) : OwnershipLaw (s.refuseOrphan p why believed r c) := by
  unfold State.refuseOrphan
  split
  · split
    · exact hs
    · next b hb =>
      exact (State.toNormalClaim_same r _).owned (State.redirectTo_owned hs (unowned_of_live hs hc) (liveBelieved_other hb))
  · split
    · exact hs
    · exact ((changed_same hc _).trans (State.claimWithdrawn_same r _)).owned hs
  · split
    · exact hs
    · exact State.failRecord_owned hs r _

theorem State.takeRefuse_owned {s : State} (hs : OwnershipLaw s) (p : Station) (claimant reason believed : Byte) (r : Region) :
    OwnershipLaw (s.takeRefuse p claimant reason believed r) := by
  unfold State.takeRefuse
  split
  · split
    · next hc =>
      split
      · split
        · exact State.refuseNormal_owned hs hc p _ believed
        · exact hs
      · exact State.refuseOrphan_owned hs hc p _ believed
    · exact hs
  · exact hs

theorem takeWithdraw_ownership {s : State} (hs : OwnershipLaw s) (p : Station) (r : Region) : OwnershipLaw (s.takeWithdraw p r) := by
  unfold State.takeWithdraw
  split
  · exact State.removeClaimant_owned hs r p
  · exact hs

end Sys2Proof.Machine

/-! The law of ownership over every command and every step (O57). -/

namespace Sys2Proof.Machine

open Sys2Proof.Safety

/-! ### Host accesses -/

theorem State.writeOutsideReset_owned {s : State} (hs : OwnershipLaw s) (lanes : BitVec 4) {act : State → State} (h : Same s (act s)) :
    OwnershipLaw (s.writeOutsideReset lanes act) := by
  unfold State.writeOutsideReset
  split
  · exact (State.respond_same _ _ _).owned (h.owned hs)
  · exact (s.respond_same _ _).owned hs

theorem State.writeFlags_same (s : State) (lanes : BitVec 4) (data : HostWord) : Same s (s.writeFlags lanes data) := by
  unfold State.writeFlags
  split
  · exact Same.withCmd s _
  · exact Same.refl s

theorem State.writeMask_same (s : State) (lanes : BitVec 4) (data : HostWord) : Same s (s.writeMask lanes data) := by
  unfold State.writeMask
  split
  · exact Same.withCmd s _
  · exact Same.refl s

theorem State.writeConfig_same (s : State) (word : BitVec 13) (lanes : BitVec 4) (data : HostWord) : Same s (s.writeConfig word lanes data) := by
  unfold State.writeConfig
  split
  · exact (Same.withCtl s (by exact rfl)).trans (State.respond_same _ _ _)
  · exact s.respond_same _ _

theorem State.writeRegister_same (s : State) (word : BitVec 13) (lanes : BitVec 4) (data : HostWord) :
    Same s (s.writeRegister word lanes data) := by
  unfold State.writeRegister
  split
  · exact (Same.withCmd s _).trans (State.respond_same _ _ _)
  · exact s.respond_same _ _

/-! ### The commands of the mailbox -/

theorem State.command_owned {s : State} (hs : OwnershipLaw s) (code : Byte) (arg : Option Byte) {take : State → State}
    (h : ∀ u, OwnershipLaw u → OwnershipLaw (take u)) : OwnershipLaw (s.command code arg take) := by
  have hstored : OwnershipLaw (s.storeCommand code arg) := (Same.withCmd s _).owned hs
  unfold State.command
  dsimp only
  generalize s.storeCommand code arg = u at hstored ⊢
  split
  · exact (State.respond_same _ _ _).owned ((State.setResult_same _ _).owned hstored)
  · exact (State.respond_same _ _ _).owned (h _ ((Same.withCmd u { u.cmd with commandDone := true }).owned hstored))

theorem State.regionCommand_owned {act : Region → State → State} (h : ∀ r u, OwnershipLaw u → OwnershipLaw (act r u)) {s : State}
    (hs : OwnershipLaw s) : OwnershipLaw (s.regionCommand act) := by
  unfold State.regionCommand
  split
  · exact (s.setResult_same _).owned hs
  · split
    · exact h _ s hs
    · exact (s.setResult_same _).owned hs

theorem State.onOwned_owned {act : Region → State → State} {r : Region} {s : State} (hs : OwnershipLaw s)
    (h : (s.entry r).role = .owner → OwnershipLaw (act r s)) : OwnershipLaw (s.onOwned act r) := by
  unfold State.onOwned
  split
  · next hrole => exact (State.setResult_same _ _).owned (h hrole)
  · exact (s.setResult_same _).owned hs

/-! ### Every command -/

/-- A command whose terms may fail to spell it. -/
theorem owned_of_wellFormed {b : Bool} {t u : State}
    (h : (if b = true then Host.Outcome.next u else .refused .illFormed : Host.Outcome State Fault Refusal) = .next t)
    (hu : OwnershipLaw u) : OwnershipLaw t := by
  split at h
  · cases h; exact hu
  · cases h

theorem exec_owned {c : Instr} {s t : State} (h : exec c s = .next t) (hs : OwnershipLaw s) : OwnershipLaw t := by
  have next : ∀ {u}, Host.Outcome.next u = (.next t : Host.Outcome State Fault Refusal) → OwnershipLaw u → OwnershipLaw t :=
    fun h hu => by cases h; exact hu
  cases c with
  | nrstAsserted => exact next h s.pinReset_owned
  | nrstReleased straps => exact next h (State.leavePinReset_owned hs straps)
  | imageClearComplete => exact next h (State.clearingEnds_owned hs)
  | msTick => exact next h (State.tick_owned hs)
  | windowRead word lanes => exact next h ((s.respond_same _ _).owned hs)
  | windowWrite word lanes data => exact next h (State.windowWrite_owned hs word lanes data)
  | configurationWrite word lanes data => exact owned_of_wellFormed h ((s.writeConfig_same word lanes data).owned hs)
  | noticePop lanes data => exact next h (State.writeOutsideReset_owned hs lanes (Same.withCmd s _))
  | flagsWrite lanes data => exact next h (State.writeOutsideReset_owned hs lanes (s.writeFlags_same lanes data))
  | maskWrite lanes data => exact next h (State.writeOutsideReset_owned hs lanes (s.writeMask_same lanes data))
  | registerWrite word lanes data => exact owned_of_wellFormed h ((s.writeRegister_same word lanes data).owned hs)
  | joinCommand arg => exact next h (State.command_owned hs _ arg fun _ => State.join_owned)
  | leaveCommand arg => exact next h (State.command_owned hs _ arg fun _ => State.leaveCell_owned)
  | restartCommand arg straps => exact next h (State.command_owned hs _ arg fun _ hu => State.restartStation_owned hu straps)
  | claimCommand arg =>
    exact next h (State.command_owned hs _ arg fun _ => State.regionCommand_owned fun r _ hu => State.claimRegion_owned hu r)
  | withdrawCommand arg =>
    exact next h (State.command_owned hs _ arg fun _ => State.regionCommand_owned fun r _ hu => State.withdrawClaim_owned hu r)
  | releaseCommand arg =>
    exact next h (State.command_owned hs _ arg fun _ => State.regionCommand_owned fun _ _ hu =>
      State.onOwned_owned hu (State.forceOut_owned hu))
  | holdCommand arg =>
    exact next h (State.command_owned hs _ arg fun _ => State.regionCommand_owned fun _ _ hu =>
      State.onOwned_owned hu (State.hold_owned hu))
  | unholdCommand arg =>
    exact next h (State.command_owned hs _ arg fun _ => State.regionCommand_owned fun _ _ hu =>
      State.onOwned_owned hu (State.unhold_owned hu))
  | refreshCommand arg =>
    exact next h (State.command_owned hs _ arg fun _ => State.regionCommand_owned fun r _ hu =>
      State.onOwned_owned hu fun _ => State.addFull_owned hu r)
  | unknownCommand arg code => exact owned_of_wellFormed h (State.command_owned hs code arg fun u => (u.setResult_same _).owned)
  | carrierStart => exact next h (s.carrierAppears_same.owned hs)
  | lineIdle => exact next h (s.lineBecomesIdle_same.owned hs)
  | schedulerTake => exact next h (State.leaveIfDone_owned (State.schedule_owned hs))
  | deferralWaitExpiry => exact next h (State.waitEnds_owned hs)
  | attemptCarried => exact next h (State.carried_owned hs)
  | attemptCollision => exact next h (State.collided_owned hs)
  | badBurst =>
    exact next h (State.sense_owned hs _ fun u hu _ =>
      (Same.withFlight u (x := { u.line with checkErrors := satSucc u.line.checkErrors }) rfl (takeOnLine_flight rfl)).owned hu)
  | idClashFrame => exact next h (State.sense_owned hs _ fun u hu _ => State.clash_owned (State.countGood_owned hu))
  | noSourceFrame source => exact owned_of_wellFormed h (State.sense_owned hs _ fun u hu _ => State.countGood_owned hu)
  | unknownKindFrame code hd => exact owned_of_wellFormed h (State.receive_owned hs hd .other fun _ _ hu => hu.owned)
  | presenceReceived hd profile st owned =>
    exact next h (State.receive_owned hs hd _ fun p u hu => State.takePresenceList_owned hu.owned hu.other owned)
  | joinReceived hd profile => exact next h (State.receive_owned hs hd _ fun p u hu => State.catchUp_owned hu.owned p)
  | leaveReceived hd => exact next h (State.receive_owned hs hd .leave fun _ _ hu => hu.owned)
  | claimReceived hd =>
    exact next h (State.receive_owned hs hd .other fun p u hu => inRegion_owned hu.owned fun r =>
      State.takeClaim_owned hu.owned hu.other r)
  | waitReceived hd claimant position =>
    exact next h (State.receive_owned hs hd .other fun p u hu => inRegion_owned hu.owned fun r =>
      (u.takeWait_same p claimant r).owned hu.owned)
  | refuseReceived hd claimant reason believed =>
    exact next h (State.receive_owned hs hd .other fun p u hu => inRegion_owned hu.owned fun r =>
      State.takeRefuse_owned hu.owned p claimant reason believed r)
  | withdrawReceived hd =>
    exact next h (State.receive_owned hs hd .other fun p u hu => inRegion_owned hu.owned fun r => takeWithdraw_ownership hu.owned p r)
  | handoverReceived hd newOwner count ids content =>
    exact next h (State.receive_owned hs hd .other fun p u hu => inRegion_owned hu.owned fun r =>
      State.takeHandover_owned hu.owned (hu.silent rfl) p hd.seq newOwner count ids content r)
  | takeReceived hd content =>
    exact next h (State.receive_owned hs hd .other fun p u hu => inRegion_owned hu.owned fun r =>
      State.takeTake_owned hu.owned hu.other hd.seq content r)
  | releaseReceived hd =>
    exact next h (State.receive_owned hs hd .other fun p u hu => inRegion_owned hu.owned fun r =>
      State.takeRelease_owned hu.owned p hd.seq r)
  | updateReceived hd offset length data =>
    exact owned_of_wellFormed h (State.receive_owned hs hd .other fun p u hu => inRegion_owned hu.owned fun r =>
      State.takeUpdate_owned hu.owned hu.other hd.seq offset data r)
  | repairReceived hd =>
    exact next h (State.receive_owned hs hd .other fun _ _ hu => inRegion_owned hu.owned fun r => State.addFull_owned hu.owned r)
  | listenTimerExpiry => exact next h (State.listenExpires_owned hs)
  | leaveTimerExpiry => exact next h (State.leaveExpires_owned hs)
  | presenceTimerExpiry => exact next h (State.presenceExpires_owned hs)
  | refreshTimerExpiry => exact next h (State.refreshExpires_owned hs)
  | scanTimerExpiry => exact next h (State.scanExpires_owned hs)
  | tenureTimerExpiry r => exact next h (State.tenureExpires_owned hs r)
  | answerTimerExpiry r => exact next h (State.answerExpires_owned hs r)
  | patienceTimerExpiry r => exact next h (State.patienceExpires_owned hs r)
  | orphanWaitTimerExpiry r => exact next h (State.orphanWaitExpires_owned hs r)
  | redirectTimerExpiry r => exact next h (State.redirectExpires_owned hs r)
  | silenceTimerExpiry p => exact next h (State.silenceExpires_owned hs p)
  | homeClaim => exact next h (State.takeHome_owned hs)

theorem Same.withPending (s : State) (x : List Instr) : Same s { s with pending := x } := ⟨rfl, rfl, le_rfl, fun _ => id, fun _ => rfl⟩

/-- Settles O57: the law speaks of no waiting command, and every command keeps it. -/
theorem stepsKeepOwnership : Obligations.StepsKeepOwnership := fun _ _ hs h =>
  step_keeps (P := OwnershipLaw) (fun s rest h => (Same.withPending s rest).owned h) (fun h => exec_owned h) hs h

end Sys2Proof.Machine
